-- ==== Sys2Proof/Word.lean ====
section
/-! DEFINITION. The words of the dcrypto block: a byte, a byte string and the 32-bit word of rules R11 and R12. -/

namespace Sys2Proof

/-- A byte, 8 bits (R12). -/
abbrev Byte := BitVec 8

/-- A byte string: element 0 is the byte at the lowest offset (R12). -/
abbrev Bytes := List Byte

/-- A 32-bit word: a command word, `FIPS_STATUS`, a noise word, a word operand (R32). -/
abbrev Word := BitVec 32

end Sys2Proof
end

