-- ==== Sys2Proof/Syntax.lean ====
section
/-! DEFINITION. The 43 instructions of spec/opcode_table.json, one constructor per row in the table's order, with the
fields of a command word (R110) that the row uses. A selector or slot that the row's `mask` leaves free is kept as its raw
bits: an unsupported value is an operand error of the instruction's own rule and no decode error (R116). -/

namespace Sys2Proof

/-- A command of the block (R115). `alg`, `slot`, `path`, `len`, ... are the fields `ALG`, `SEL` and `ARG` of R110. -/
inductive Instr where
  /-- `EQUALS #len` (R350). -/
  | equals (len : BitVec 16)
  /-- `HWSTAT` (R351). -/
  | hwstat
  /-- `HASH_INIT.alg c<slot>, #path` (R150). -/
  | hashInit (alg slot : BitVec 4) (path : BitVec 2)
  /-- `HASH_UPDATE c<slot>` (R151). -/
  | hashUpdate (slot : BitVec 4)
  /-- `HASH_FINAL c<slot>` (R152). -/
  | hashFinal (slot : BitVec 4)
  /-- `HASH_SIZE.alg` (R153). -/
  | hashSize (alg : BitVec 4)
  /-- `HASH_BLOCK_SIZE.alg` (R154). -/
  | hashBlockSize (alg : BitVec 4)
  /-- `HMAC_INIT.alg c<slot>, #path` (R172). -/
  | hmacInit (alg slot : BitVec 4) (path : BitVec 2)
  /-- `HMAC_UPDATE c<slot>` (R173). -/
  | hmacUpdate (slot : BitVec 4)
  /-- `HMAC_FINAL c<slot>` (R174). -/
  | hmacFinal (slot : BitVec 4)
  /-- `HKDF.alg #len` (R176). -/
  | hkdf (alg : BitVec 4) (len : BitVec 16)
  /-- `TRNG_STARTUP` (R197). -/
  | trngStartup
  /-- `TRNG_WORD` (R198). -/
  | trngWord
  /-- `DRBG_INIT g<slot>` (R213). -/
  | drbgInit (slot : BitVec 4)
  /-- `DRBG_RESEED g<slot>` (R214). -/
  | drbgReseed (slot : BitVec 4)
  /-- `DRBG_GENERATE g<slot>, #outLen` (R215). -/
  | drbgGenerate (slot : BitVec 4) (outLen : BitVec 16)
  /-- `DRBG_EXIT g<slot>` (R218). -/
  | drbgExit (slot : BitVec 4)
  /-- `DRBG_INIT_RFC6979 g<slot>` (R219). -/
  | drbgInitRfc6979 (slot : BitVec 4)
  /-- `RAND_BYTES #n` (R222). -/
  | randBytes (n : BitVec 16)
  /-- `AES_ECB_ENC.keysize` (R325). -/
  | aesEcbEnc (keysize : BitVec 4)
  /-- `AES_ECB_DEC.keysize` (R326). -/
  | aesEcbDec (keysize : BitVec 4)
  /-- `AES_CTR.keysize` (R327). -/
  | aesCtr (keysize : BitVec 4)
  /-- `AES_CBC_ENC.keysize` (R328). -/
  | aesCbcEnc (keysize : BitVec 4)
  /-- `AES_CBC_DEC.keysize` (R329). -/
  | aesCbcDec (keysize : BitVec 4)
  /-- `AES_CMAC.keysize` (R331). -/
  | aesCmac (keysize : BitVec 4)
  /-- `MODEXP_BLINDED` (R282). -/
  | modexpBlinded
  /-- `MODEXP_PUB` (R284). -/
  | modexpPub
  /-- `RSA_ENCRYPT.padding.hash` (R296). -/
  | rsaEncrypt (padding hash : BitVec 4)
  /-- `RSA_DECRYPT.padding.hash` (R297). -/
  | rsaDecrypt (padding hash : BitVec 4)
  /-- `RSA_SIGN.padding.hash` (R298). -/
  | rsaSign (padding hash : BitVec 4)
  /-- `RSA_VERIFY.padding.hash` (R299). -/
  | rsaVerify (padding hash : BitVec 4)
  /-- `P256_KEY_FROM_BYTES` (R250). -/
  | p256KeyFromBytes
  /-- `P256_BASE_MUL` (R251). -/
  | p256BaseMul
  /-- `P256_POINT_MUL` (R252). -/
  | p256PointMul
  /-- `ECDSA_SIGN_RAW` (R253). -/
  | ecdsaSignRaw
  /-- `ECDSA_SIGN g<drbgSlot>` (R254). -/
  | ecdsaSign (drbgSlot : BitVec 4)
  /-- `ECDSA_VERIFY` (R255). -/
  | ecdsaVerify
  /-- `FIPS_POWER_ON` (R360). -/
  | fipsPowerOn
  /-- `FIPS_STATUS` (R364). -/
  | fipsStatus
  /-- `FIPS_ALLOWED` (R365). -/
  | fipsAllowed
  /-- `FIPS_THROW_ERR #mask` (R366). -/
  | fipsThrowErr (mask : BitVec 16)
  /-- `FIPS_KAT.kat` (R367). -/
  | fipsKat (kat : BitVec 4)
  /-- `FIPS_INJECT #mask` (R368). -/
  | fipsInject (mask : BitVec 16)
  deriving DecidableEq, Repr

end Sys2Proof
end

