-- ==== Sys2Proof/WellFormed.lean ====
section
/-! DEFINITION. Which terms of `Instr` are legal commands: R116(c) makes path selector 3 of `HASH_INIT` and `HMAC_INIT`
illegal; every other field holds exactly the values its bits can hold (R117). -/

namespace Sys2Proof

/-- R116(c): the path selector is not 3. -/
def legalPath (path : BitVec 2) : Bool := path != 3

/-- The instruction is a legal instance of its row (R117). -/
def Instr.wellFormed : Instr → Bool
  | .hashInit _ _ path => legalPath path
  | .hmacInit _ _ path => legalPath path
  | .equals _ => true
  | .hwstat => true
  | .hashUpdate _ => true
  | .hashFinal _ => true
  | .hashSize _ => true
  | .hashBlockSize _ => true
  | .hmacUpdate _ => true
  | .hmacFinal _ => true
  | .hkdf _ _ => true
  | .trngStartup => true
  | .trngWord => true
  | .drbgInit _ => true
  | .drbgReseed _ => true
  | .drbgGenerate _ _ => true
  | .drbgExit _ => true
  | .drbgInitRfc6979 _ => true
  | .randBytes _ => true
  | .aesEcbEnc _ => true
  | .aesEcbDec _ => true
  | .aesCtr _ => true
  | .aesCbcEnc _ => true
  | .aesCbcDec _ => true
  | .aesCmac _ => true
  | .modexpBlinded => true
  | .modexpPub => true
  | .rsaEncrypt _ _ => true
  | .rsaDecrypt _ _ => true
  | .rsaSign _ _ => true
  | .rsaVerify _ _ => true
  | .p256KeyFromBytes => true
  | .p256BaseMul => true
  | .p256PointMul => true
  | .ecdsaSignRaw => true
  | .ecdsaSign _ => true
  | .ecdsaVerify => true
  | .fipsPowerOn => true
  | .fipsStatus => true
  | .fipsAllowed => true
  | .fipsThrowErr _ => true
  | .fipsKat _ => true
  | .fipsInject _ => true

end Sys2Proof
end

