-- ==== Sys2Proof/Decode.lean ====
section
/-! DEFINITION. The decoder of command words (rules R110 to R117), total on all 32-bit words and rejecting by name, and the
encoder written from the same layout. -/

namespace Sys2Proof

/-- Why a command word is illegal: the clauses of R116. The engine answers each with `RES = FAIL` (R116). -/
inductive DecodeError where
  /-- R116(a): the opcode byte is not in the table of R115. -/
  | unknownOpcode
  /-- R116(b): a field that the instruction does not use is not 0. -/
  | reservedFieldNonzero
  /-- R116(c): path selector 3 in `HASH_INIT` or `HMAC_INIT`. -/
  | illegalPath
  deriving DecidableEq, Repr

/-- `OPC = CMD[31:24]` (R110). -/
def opcOf (w : Word) : BitVec 8 := w.extractLsb' 24 8

/-- `ALG = CMD[23:20]` (R110). -/
def algOf (w : Word) : BitVec 4 := w.extractLsb' 20 4

/-- `SEL = CMD[19:16]` (R110). -/
def selOf (w : Word) : BitVec 4 := w.extractLsb' 16 4

/-- `ARG = CMD[15:0]` (R110). -/
def argOf (w : Word) : BitVec 16 := w.extractLsb' 0 16

/-- The command word with these fields (R110). -/
def commandWord (opc : BitVec 8) (alg sel : BitVec 4) (arg : BitVec 16) : Word := opc ++ alg ++ sel ++ arg

/-- R116(b): the instruction, where the fields it does not use are 0. -/
def zeroFields (unusedAreZero : Bool) (i : Instr) : Except DecodeError Instr :=
  if unusedAreZero then .ok i else .error .reservedFieldNonzero

/-- R113 for `HASH_INIT` and `HMAC_INIT`: `ARG[15:2]` must be 0 and `ARG[1:0]` must not be 3. -/
def legalPathForm (arg : BitVec 16) (i : Instr) : Except DecodeError Instr :=
  if arg.extractLsb' 2 14 != 0 then .error .reservedFieldNonzero
  else if legalPath (arg.setWidth 2) then .ok i else .error .illegalPath

/-- The opcode map of R115 with the unused fields of R111 to R113. -/
def decodeFields (opc : BitVec 8) (alg sel : BitVec 4) (arg : BitVec 16) : Except DecodeError Instr :=
  match opc with
  | 0x00 => zeroFields (alg == 0 && sel == 0) (.equals arg)
  | 0x01 => zeroFields (alg == 0 && sel == 0 && arg == 0) .hwstat
  | 0x10 => legalPathForm arg (.hashInit alg sel (arg.setWidth 2))
  | 0x11 => zeroFields (alg == 0 && arg == 0) (.hashUpdate sel)
  | 0x12 => zeroFields (alg == 0 && arg == 0) (.hashFinal sel)
  | 0x13 => zeroFields (sel == 0 && arg == 0) (.hashSize alg)
  | 0x14 => zeroFields (sel == 0 && arg == 0) (.hashBlockSize alg)
  | 0x20 => legalPathForm arg (.hmacInit alg sel (arg.setWidth 2))
  | 0x21 => zeroFields (alg == 0 && arg == 0) (.hmacUpdate sel)
  | 0x22 => zeroFields (alg == 0 && arg == 0) (.hmacFinal sel)
  | 0x23 => zeroFields (sel == 0) (.hkdf alg arg)
  | 0x30 => zeroFields (alg == 0 && sel == 0 && arg == 0) .trngStartup
  | 0x31 => zeroFields (alg == 0 && sel == 0 && arg == 0) .trngWord
  | 0x40 => zeroFields (alg == 0 && arg == 0) (.drbgInit sel)
  | 0x41 => zeroFields (alg == 0 && arg == 0) (.drbgReseed sel)
  | 0x42 => zeroFields (alg == 0) (.drbgGenerate sel arg)
  | 0x43 => zeroFields (alg == 0 && arg == 0) (.drbgExit sel)
  | 0x44 => zeroFields (alg == 0 && arg == 0) (.drbgInitRfc6979 sel)
  | 0x45 => zeroFields (alg == 0 && sel == 0) (.randBytes arg)
  | 0x50 => zeroFields (sel == 0 && arg == 0) (.aesEcbEnc alg)
  | 0x51 => zeroFields (sel == 0 && arg == 0) (.aesEcbDec alg)
  | 0x52 => zeroFields (sel == 0 && arg == 0) (.aesCtr alg)
  | 0x53 => zeroFields (sel == 0 && arg == 0) (.aesCbcEnc alg)
  | 0x54 => zeroFields (sel == 0 && arg == 0) (.aesCbcDec alg)
  | 0x55 => zeroFields (sel == 0 && arg == 0) (.aesCmac alg)
  | 0x60 => zeroFields (alg == 0 && sel == 0 && arg == 0) .modexpBlinded
  | 0x61 => zeroFields (alg == 0 && sel == 0 && arg == 0) .modexpPub
  | 0x62 => zeroFields (arg == 0) (.rsaEncrypt alg sel)
  | 0x63 => zeroFields (arg == 0) (.rsaDecrypt alg sel)
  | 0x64 => zeroFields (arg == 0) (.rsaSign alg sel)
  | 0x65 => zeroFields (arg == 0) (.rsaVerify alg sel)
  | 0x70 => zeroFields (alg == 0 && sel == 0 && arg == 0) .p256KeyFromBytes
  | 0x71 => zeroFields (alg == 0 && sel == 0 && arg == 0) .p256BaseMul
  | 0x72 => zeroFields (alg == 0 && sel == 0 && arg == 0) .p256PointMul
  | 0x73 => zeroFields (alg == 0 && sel == 0 && arg == 0) .ecdsaSignRaw
  | 0x74 => zeroFields (alg == 0 && arg == 0) (.ecdsaSign sel)
  | 0x75 => zeroFields (alg == 0 && sel == 0 && arg == 0) .ecdsaVerify
  | 0x80 => zeroFields (alg == 0 && sel == 0 && arg == 0) .fipsPowerOn
  | 0x81 => zeroFields (alg == 0 && sel == 0 && arg == 0) .fipsStatus
  | 0x82 => zeroFields (alg == 0 && sel == 0 && arg == 0) .fipsAllowed
  | 0x83 => zeroFields (alg == 0 && sel == 0) (.fipsThrowErr arg)
  | 0x84 => zeroFields (sel == 0 && arg == 0) (.fipsKat alg)
  | 0x85 => zeroFields (alg == 0 && sel == 0) (.fipsInject arg)
  | _ => .error .unknownOpcode

/-- The instruction of a command word (R117). -/
def decode (w : Word) : Except DecodeError Instr := decodeFields (opcOf w) (algOf w) (selOf w) (argOf w)

/-- The command word of an instruction (R110, R115). -/
def encode : Instr → Word
  | .equals arg => commandWord 0x00 0 0 arg
  | .hwstat => commandWord 0x01 0 0 0
  | .hashInit alg sel path => commandWord 0x10 alg sel (path.setWidth 16)
  | .hashUpdate sel => commandWord 0x11 0 sel 0
  | .hashFinal sel => commandWord 0x12 0 sel 0
  | .hashSize alg => commandWord 0x13 alg 0 0
  | .hashBlockSize alg => commandWord 0x14 alg 0 0
  | .hmacInit alg sel path => commandWord 0x20 alg sel (path.setWidth 16)
  | .hmacUpdate sel => commandWord 0x21 0 sel 0
  | .hmacFinal sel => commandWord 0x22 0 sel 0
  | .hkdf alg arg => commandWord 0x23 alg 0 arg
  | .trngStartup => commandWord 0x30 0 0 0
  | .trngWord => commandWord 0x31 0 0 0
  | .drbgInit sel => commandWord 0x40 0 sel 0
  | .drbgReseed sel => commandWord 0x41 0 sel 0
  | .drbgGenerate sel arg => commandWord 0x42 0 sel arg
  | .drbgExit sel => commandWord 0x43 0 sel 0
  | .drbgInitRfc6979 sel => commandWord 0x44 0 sel 0
  | .randBytes arg => commandWord 0x45 0 0 arg
  | .aesEcbEnc alg => commandWord 0x50 alg 0 0
  | .aesEcbDec alg => commandWord 0x51 alg 0 0
  | .aesCtr alg => commandWord 0x52 alg 0 0
  | .aesCbcEnc alg => commandWord 0x53 alg 0 0
  | .aesCbcDec alg => commandWord 0x54 alg 0 0
  | .aesCmac alg => commandWord 0x55 alg 0 0
  | .modexpBlinded => commandWord 0x60 0 0 0
  | .modexpPub => commandWord 0x61 0 0 0
  | .rsaEncrypt alg sel => commandWord 0x62 alg sel 0
  | .rsaDecrypt alg sel => commandWord 0x63 alg sel 0
  | .rsaSign alg sel => commandWord 0x64 alg sel 0
  | .rsaVerify alg sel => commandWord 0x65 alg sel 0
  | .p256KeyFromBytes => commandWord 0x70 0 0 0
  | .p256BaseMul => commandWord 0x71 0 0 0
  | .p256PointMul => commandWord 0x72 0 0 0
  | .ecdsaSignRaw => commandWord 0x73 0 0 0
  | .ecdsaSign sel => commandWord 0x74 0 sel 0
  | .ecdsaVerify => commandWord 0x75 0 0 0
  | .fipsPowerOn => commandWord 0x80 0 0 0
  | .fipsStatus => commandWord 0x81 0 0 0
  | .fipsAllowed => commandWord 0x82 0 0 0
  | .fipsThrowErr arg => commandWord 0x83 0 0 arg
  | .fipsKat alg => commandWord 0x84 alg 0 0
  | .fipsInject arg => commandWord 0x85 0 0 arg

/-- The instruction the decoder reads from the bits `w` of a row that the table gives `nbits` bits (bit 0 the least
significant, bits above `nbits` zero). A command word is one 32-bit register and has no byte order of its own (R110). -/
def decodeTableWord (nbits w : Nat) : Option Instr :=
  match decode (BitVec.ofNat 32 (w % 2 ^ nbits)) with
  | .ok i => some i
  | .error _ => none

end Sys2Proof
end

