-- ==== Sys2Proof/Machine/Bytes.lean ====
section
/-! DEFINITION. Byte strings and their readings as integers: the notation of rules R12 and R13, and the constant-time
comparison of rule R350 as a function. -/

namespace Sys2Proof.Machine

/-- `zeros(n)` of R12. -/
def zeros (n : Nat) : Bytes := List.replicate n 0

/-- `rep(b, n)` of R12. -/
def rep (b : Byte) (n : Nat) : Bytes := List.replicate n b

/-- `a xor b` of R12, bytewise. -/
def xorBytes (a b : Bytes) : Bytes := List.zipWith (· ^^^ ·) a b

/-- Every byte of `s` xored with `b`: `s xor rep(b, len(s))`. -/
def xorByte (b : Byte) (s : Bytes) : Bytes := s.map (· ^^^ b)

/-- `s[i:j]` of R12: bytes `i` up to but not including `j`. -/
def slice (s : Bytes) (i j : Nat) : Bytes := (s.drop i).take (j - i)

/-- `LE(s)` of R13: `s[0]` is the least significant digit. -/
def le : Bytes → Nat
  | [] => 0
  | b :: bs => b.toNat + 256 * le bs

/-- `BE(s)` of R13: `s[0]` is the most significant digit. -/
def be (s : Bytes) : Nat := le s.reverse

/-- `toLE(v, n)` of R13 (the lowest `n` digits of `v`; R13 defines it for `v < 256^n`). -/
def toLE (v : Nat) : Nat → Bytes
  | 0 => []
  | n + 1 => BitVec.ofNat 8 v :: toLE (v / 256) n

/-- `toBE(v, n)` of R13. -/
def toBE (v n : Nat) : Bytes := (toLE v n).reverse

/-- `s` cut into pieces of `n` bytes, the last one possibly shorter; `fuel` bounds the number of pieces. -/
def chunksFuel (n : Nat) : Nat → Bytes → List Bytes
  | 0, _ => []
  | fuel + 1, s => if s.isEmpty then [] else s.take n :: chunksFuel n fuel (s.drop n)

/-- `s` cut into pieces of `n` bytes in order (`n > 0`). -/
def chunks (n : Nat) (s : Bytes) : List Bytes := chunksFuel n s.length s

/-- The loop of R350: `len` iterations whatever the bytes are, each ORing one byte difference into the accumulator. -/
def equalsLoop : Nat → Bytes → Bytes → Byte → Byte
  | 0, _, _, acc => acc
  | n + 1, a, b, acc => equalsLoop n a.tail b.tail (acc ||| (a.headD 0 ^^^ b.headD 0))

/-- `equals(a, b, len)` of R350. -/
def equals (a b : Bytes) (len : Nat) : Bool := equalsLoop len a b 0 == 0

/-- The message that follows zero or more 0x00 and one 0x01 (the data block of R291 and R293); `none` where another
byte comes first or the string ends. -/
def afterOneMarker : Bytes → Option Bytes
  | [] => none
  | b :: bs => if b = 0 then afterOneMarker bs else if b = 1 then some bs else none

end Sys2Proof.Machine
end

