-- ==== Sys2Proof/Config.lean ====
section
/-! DEFINITION. What an implementation fixes: the parameters the spec fixes (R9), the parameters it leaves open (R10), the
known-answer vectors (R376), and the values under no law (`noise()`, `draw(n)`, what a reset event leaves). -/

namespace Sys2Proof

/-- The known-answer vectors `KAT_VECTORS` of R376, with the field names of R370 to R375. What a test compares with is a
byte string (R369). -/
structure KatVectors where
  sha256Msg : Bytes
  sha256Digest : Bytes
  hmacKey : Bytes
  hmacMsg : Bytes
  hmacTag : Bytes
  ecdsaD : Nat
  ecdsaQx : Nat
  ecdsaQy : Nat
  ecdsaDigest : Bytes
  ecdsaK : Nat
  ecdsaR : Bytes
  ecdsaS : Bytes
  aesKey : Bytes
  aesPt : Bytes
  aesCt : Bytes
  drbgEntropy : Bytes
  drbgNonce : Bytes
  drbgPerso : Bytes
  drbgReseedEntropy : Bytes
  drbgReseedAddl : Bytes
  drbgGenAddl : Bytes
  drbgOut : Bytes
  rsaE : Word
  rsaDigest : Bytes
  rsaN : Bytes
  rsaSig : Bytes
  deriving DecidableEq, Repr

/-- The open parameters of R10. `DRBG_COOKIE` has no field: the cookie is `Valid` or `Invalid` (D14). -/
structure Config where
  /-- `N_CTX`, the number of context slots. -/
  nCtx : Nat
  /-- `N_DRBG`, the number of DRBG slots. -/
  nDrbg : Nat
  /-- `MAX_BUF`, the largest port length in bytes. -/
  maxBuf : Nat
  /-- `DRBG_NO_AUTO_RESEED`. -/
  noAutoReseed : Word
  /-- `DRBG_DEFAULT_THRESHOLD`. -/
  defaultThreshold : Word
  /-- `DRBG_ENTROPY_BYTES`. -/
  entropyBytes : Nat
  /-- `DRBG_NONCE_BYTES`. -/
  nonceBytes : Nat
  /-- `P256_MAX_TRIES`. -/
  p256MaxTries : Nat
  /-- `KAT_RSA_ENABLED`. -/
  katRsaEnabled : Bool
  /-- `KAT_VECTORS`. -/
  kat : KatVectors
  deriving DecidableEq, Repr

/-- The bounds that R10 puts on the open parameters (its `MAX_BUF >= 512` follows from `>= 937`). -/
abbrev Config.Lawful (c : Config) : Prop :=
  2 ≤ c.nCtx ∧ c.nCtx ≤ 16 ∧ 2 ≤ c.nDrbg ∧ c.nDrbg ≤ 16 ∧ 937 ≤ c.maxBuf ∧
    1 ≤ c.defaultThreshold.toNat ∧ c.defaultThreshold.toNat < c.noAutoReseed.toNat ∧ 1 ≤ c.p256MaxTries

/-- `RCT_CUTOFF_SAMPLES` (R9, R192). -/
def Config.rctCutoff : Nat := 52

/-- `APT_WINDOW_SAMPLES` in words of 32 samples (R9, R191). -/
def Config.aptWindowWords : Nat := 32

/-- `APT_CUTOFF` (R9, R193). -/
def Config.aptCutoff : Nat := 708

/-- The lower end of the allowed population count, `1024 - APT_CUTOFF` (R9, R193). -/
def Config.aptLow : Nat := 316

/-- `TRNG_STARTUP_SAMPLES` in words of 32 samples (R9, R191). -/
def Config.startupWords : Nat := 128

/-- `DRBG_MAX_OUT_BYTES` (R9, R221). -/
def Config.drbgMaxOut : Nat := 937

/-- The default known-answer record of 95_test_vectors.md section 6 (D43). DESIGN CHOICE (log 2): the spec leaves the
record open. -/
def KatVectors.suggested : KatVectors where
  sha256Msg := Machine.toBE 0x6574616f6e7269736864 10
  sha256Digest := Machine.toBE 0xf553cdb8cf01ee179b93c968c0ea409106ec8e1196c85d1caf6422e6504f4757 32
  hmacKey := Machine.rep 0x0b 20
  hmacMsg := Machine.toBE 0x4869205468657265 8
  hmacTag := Machine.toBE 0xb0344c61d8db38535ca8afceaf0bf12b881dc200c9833da726e9376c2e32cff7 32
  ecdsaD := 0xc9afa9d845ba75166b5c215767b1d6934e50c3db36e89b127b8a622b120f6721
  ecdsaQx := 0x60fed4ba255a9d31c961eb74c6356d68c049b8923b61fa6ce669622e60f29fb6
  ecdsaQy := 0x7903fe1008b8bc99a41ae9e95628bc64f2f1b20c2d7e9f5177a3c294d4462299
  ecdsaDigest := Machine.toBE 0xaf2bdbe1aa9b6ec1e2ade1d694f41fc71a831d0268e9891562113d8a62add1bf 32
  ecdsaK := 0xa6e3c57dd01abe90086538398355dd4c3b17aa873382b0f24d6129493d8aad60
  ecdsaR := Machine.toBE 0xefd48b2aacb6a8fd1140dd9cd45e81d69d2c877b56aaf991c34d0ea84eaf3716 32
  ecdsaS := Machine.toBE 0xf7cb1c942d657c41d436c7a1b6e29f65f3e900dbb9aff4064dc4ab2f843acda8 32
  aesKey := Machine.toBE 0x603deb1015ca71be2b73aef0857d77811f352c073b6108d72d9810a30914dff4 32
  aesPt := Machine.toBE 0x6bc1bee22e409f96e93d7e117393172a 16
  aesCt := Machine.toBE 0xf3eed1bdb5d2a03c064b5a7e3db181f8 16
  drbgEntropy := Machine.toBE 0x000102030405060708090a0b0c0d0e0f101112131415161718191a1b1c1d1e1f 32
  drbgNonce := Machine.toBE 0x202122232425262728292a2b2c2d2e2f 16
  drbgPerso := Machine.toBE 0x404142434445464748494a4b4c4d4e4f505152535455565758595a5b5c5d5e5f 32
  drbgReseedEntropy := Machine.toBE 0x808182838485868788898a8b8c8d8e8f909192939495969798999a9b9c9d9e9f 32
  drbgReseedAddl := Machine.toBE 0xc0c1c2c3c4c5c6c7c8c9cacbcccdcecfd0d1d2d3d4d5d6d7d8d9dadbdcdddedf 32
  drbgGenAddl := Machine.toBE 0x606162636465666768696a6b6c6d6e6f707172737475767778797a7b7c7d7e7f 32
  drbgOut := Machine.toBE 0x1dd33e69dd38ad2eedc5cb230a5547a63f592ec90e8a6bddae1569d04ba0f2d5bf67197bffbcb90a4c04472758193fe6 48
  rsaE := 65537
  rsaDigest := Machine.toBE 0xf553cdb8cf01ee179b93c968c0ea409106ec8e1196c85d1caf6422e6504f4757 32
  rsaN :=
    Machine.toBE 0xba22737c9674ba627e4db72d758946dc2464d07298a284548a52680a890fca02 32 ++
    Machine.toBE 0x096b61a44cbfc77c96e70c724d7f2f4ce035b236a78fc484f39d066e5c5c9693 32 ++
    Machine.toBE 0xcd62814fd9b926e9196fa40b08669698686001ae1c5c3b1c7c2021a89c1dd6a7 32 ++
    Machine.toBE 0x55a4df23b89847d9db6b5cd9c7e94158f3481923f96d465260965e5e8d9e2401 32 ++
    Machine.toBE 0x45233b4ae52631d6df8475c8742f9afdda817db59783bbeae4cfbc9908b71325 32 ++
    Machine.toBE 0x2bc6161e747ba99ce71a317f3c39e6b8503a668cd1d9e3183c7c87f3656a362b 32 ++
    Machine.toBE 0xe8cf3cb4fdfb5444ac273618c5e41585c296829ddc1340ed31f37750c4b13ec3 32 ++
    Machine.toBE 0x5bb1178cfe04acbb7d1b7dbc9fcbe5dbd74a89ca3a711637bcc33ef4f86a10bd 32
  rsaSig :=
    Machine.toBE 0xa133294491f8b2fa7932515ca2bcfd7ac7a98f3d06837479a9635205cf4de925 32 ++
    Machine.toBE 0xa9fa447a55ac8e19af688921f68f3fcb868fecf8510278e9efe2531d5839e6d9 32 ++
    Machine.toBE 0x71338e006f0ccb1c489ed573c3172e13557f089d9b106b42ab2cfe1fdd58d86a 32 ++
    Machine.toBE 0x42c59dcf4c23fdbd0a87d4f9f5ca2e8417d065158e0a6a398987a1b754979e8f 32 ++
    Machine.toBE 0xa213db837f11cd02fe88ea90468e6be913dd9a1b8ee21db237a84a3bf19dc93e 32 ++
    Machine.toBE 0x16f7b9ade8eb380a1377dab8ff394b26995d61b616e80871e030aa7c00a2bb32 32 ++
    Machine.toBE 0x5387ad01fac160fc3299627cbab1e380acf5c458856357920cd48757dc2ece10 32 ++
    Machine.toBE 0xcb5b333c14f54d03a5c8e1f8deac7f0b7ee72ca1eb0f6ded07834c781cbb3664 32

/-- The values `State.reset` takes for the open parameters: those R10 suggests, and where it suggests none a value within
its bounds. DESIGN CHOICE (log 2). -/
def Config.suggested : Config where
  nCtx := 16
  nDrbg := 16
  maxBuf := 65535
  noAutoReseed := 0xFFFFFFFF
  defaultThreshold := 1024
  entropyBytes := 32
  nonceBytes := 16
  p256MaxTries := 16
  katRsaEnabled := true
  kat := KatVectors.suggested

/-- The noise source's answer to its request number `i`, where the state's list of answers holds none: a value under no
law (R15, R191). DESIGN CHOICE (log 3). -/
opaque Config.freeNoise : Nat → Word

/-- The value of draw number `i`, where the state's list of draws holds none: a value under no law (R15), of which a
`draw(n)` takes the low `n` bits. DESIGN CHOICE (log 4). -/
opaque Config.freeDraw : Nat → Nat

/-- What reset event number `i` leaves in field number `j` of the state that R48 calls unspecified. DESIGN CHOICE (log 6). -/
opaque Config.freeAfterReset : Nat → Nat → Nat

/-- The bytes that reset event number `i` leaves in input port `j` (R48). DESIGN CHOICE (log 5). -/
opaque Config.freePort : Nat → Nat → Bytes

end Sys2Proof
end

