-- ==== Sys2Proof/Machine/State.lean ====
section
/-! DEFINITION. The state of the block (R30), its types, the reasons a step can stop, and the state after reset (R48). -/

namespace Sys2Proof.Machine

/-- The result kinds of R16 and R34. -/
inductive Result where
  | ok
  | fail
  | retry
  | reseedNeeded
  deriving DecidableEq, Repr

/-- The hash algorithms of R40 and R141. -/
inductive HashAlg where
  | sha1
  | sha224
  | sha256
  | sha384
  | sha512
  deriving DecidableEq, Repr

/-- The five 32-bit state words of SHA-1 (R40). -/
structure Words5 where
  a : BitVec 32
  b : BitVec 32
  c : BitVec 32
  d : BitVec 32
  e : BitVec 32
  deriving DecidableEq, Repr

/-- The eight state words of a SHA-2 core with words of `w` bits (R40). -/
structure Words8 (w : Nat) where
  a : BitVec w
  b : BitVec w
  c : BitVec w
  d : BitVec w
  e : BitVec w
  f : BitVec w
  g : BitVec w
  h : BitVec w
  deriving DecidableEq, Repr

/-- The running state words `h` of a context (R40), by core. -/
inductive HashWords where
  | core1 (h : Words5)
  | core256 (h : Words8 32)
  | core512 (h : Words8 64)
  deriving DecidableEq, Repr

/-- `CTX[s].phase` (R40). -/
inductive Phase where
  | active
  | finalized
  deriving DecidableEq, Repr

/-- `CTX[s].path` (R40, R46). -/
inductive HashPath where
  | sw
  | hw
  deriving DecidableEq, Repr

/-- The fields of a live context that both kinds have (R40). -/
structure HashCtx where
  alg : HashAlg
  h : HashWords
  count : Nat
  buf : Bytes
  phase : Phase
  digest : Bytes
  path : HashPath
  deriving DecidableEq, Repr

/-- A context slot by its `kind` (R40). Kind `None` has no readable field (R48, R49), so the slot holds none then; `okey`
exists only for kind `Hmac` (R41). DESIGN CHOICE (log 7). -/
inductive CtxSlot where
  | none
  | hash (c : HashCtx)
  | hmac (c : HashCtx) (okey : Bytes)
  deriving DecidableEq, Repr

/-- `DRBG[s].cookie` (R42). -/
inductive Cookie where
  | valid
  | invalid
  deriving DecidableEq, Repr

/-- A DRBG instance (R42). -/
structure Drbg where
  k : Bytes
  v : Bytes
  reseedCounter : Word
  reseedThreshold : Word
  cookie : Cookie
  deriving DecidableEq, Repr

/-- The TRNG health-test record (R44). -/
structure Trng where
  /-- The most recent sample; `none` before the first. -/
  runBit : Option Bool
  /-- The length of the current run, whatever its length (R44, R192). -/
  runLen : Nat
  /-- The last 1024 samples in words of 32, oldest first. -/
  window : List Word
  healthy : Bool
  /-- The latch (R195), true exactly with one of the two TRNG bits of `FIPS_STATUS` (R44). -/
  failed : Bool
  deriving DecidableEq, Repr

/-- What the agents outside the engine bring to it, one at a time: a host task's command, with the whole of `CMD` and
`IN0..IN3` (R83, R403), or a reset event (R420, R421). DESIGN CHOICE (log 1). -/
inductive Event where
  | command (cmd : Word) (in0 in1 in2 in3 : Bytes)
  | hardReset
  | resume
  deriving DecidableEq, Repr

/-- The model's own fields: the inputs that are yet to come. DESIGN CHOICE (logs 1, 3, 4 and 6). -/
structure Env where
  /-- The total order of commands and reset events (R90), first the next one. -/
  schedule : List Event
  /-- The noise source's answers to come; after the last one they are free. -/
  noise : List Word
  /-- How many words were requested from the noise source. -/
  noiseCount : Nat
  /-- The values of `draw` to come; after the last one they are free. -/
  draws : List Nat
  /-- How many draws were made. -/
  drawCount : Nat
  /-- The number of the next reset event. -/
  resetCount : Nat
  deriving DecidableEq, Repr

/-- The complete state of the block (R30), with the configuration and the inputs to come beside it. Both slot files have 16
places, the most that a 4-bit `SEL` names; places from `N_CTX` and `N_DRBG` on do not exist for any command (log 8). -/
structure State where
  /-- The parameters of R10; no step changes them. -/
  cfg : Config
  cmd : Word
  in0 : Bytes
  in1 : Bytes
  in2 : Bytes
  in3 : Bytes
  out0 : Bytes
  out1 : Bytes
  /-- The result register, 8 bits (R34). -/
  res : BitVec 8
  fipsStatus : Word
  pwrupDonePersist : Bool
  fipsInject : BitVec 16
  /-- `SHA_HW_OWNER`; `none` is the spec's own value (R39). -/
  shaHwOwner : Option (BitVec 4)
  engineBusy : Bool
  ctx : Vector CtxSlot 16
  drbg : Vector Drbg 16
  trng : Trng
  env : Env
  deriving DecidableEq, Repr

/-- Why the machine stops. The spec has no fault (93_implementation_defined.md section 3: every command ends with a result
kind). -/
inductive Fault where
  /-- Raised by `step` alone, when the host offers an input port longer than `MAX_BUF`: the port cannot carry it (R31, R81)
  and no command was issued. Safe: the machine stops where the spec has no behaviour (log 9). -/
  | portTooLong
  deriving DecidableEq, Repr

/-- Why an instruction is refused. -/
inductive Refusal where
  /-- Raised by `exec` for an instruction without a meaning; no arm of this model does. Safe: the machine stops. -/
  | notModelled (mnemonic : String)
  deriving DecidableEq, Repr

/-- The three outcomes of a step of this machine. -/
abbrev Outcome := Host.Outcome State Fault Refusal

/-- A DRBG slot after reset event number `i`: `Invalid`, its other fields unspecified (R48, R49). -/
def Drbg.afterReset (i slot : Nat) : Drbg where
  k := toBE (Config.freeAfterReset i (4 * slot)) 32
  v := toBE (Config.freeAfterReset i (4 * slot + 1)) 32
  reseedCounter := BitVec.ofNat 32 (Config.freeAfterReset i (4 * slot + 2))
  reseedThreshold := BitVec.ofNat 32 (Config.freeAfterReset i (4 * slot + 3))
  cookie := .invalid

/-- The DRBG file after reset event number `i`. -/
def drbgAfterReset (i : Nat) : Vector Drbg 16 := Vector.ofFn fun slot => Drbg.afterReset i slot.val

/-- The TRNG record after either reset event (R48). -/
def Trng.afterReset : Trng where
  runBit := none
  runLen := 0
  window := []
  healthy := false
  failed := false

/-- No event scheduled, no answer of the noise source and no draw placed. -/
def Env.empty : Env where
  schedule := []
  noise := []
  noiseCount := 0
  draws := []
  drawCount := 0
  resetCount := 1

/-- The block after `HARD_RESET` (R48) with the parameters `cfg`. `CMD`, `IN0..IN3` and `RES`, which R48 leaves unspecified,
hold 0 and the empty string. DESIGN CHOICE (log 5). -/
def State.resetWith (cfg : Config) : State where
  cfg := cfg
  cmd := 0
  in0 := []
  in1 := []
  in2 := []
  in3 := []
  out0 := []
  out1 := []
  res := 0
  fipsStatus := 0
  pwrupDonePersist := false
  fipsInject := 0
  shaHwOwner := none
  engineBusy := false
  ctx := Vector.replicate 16 .none
  drbg := drbgAfterReset 0
  trng := Trng.afterReset
  env := Env.empty

/-- The machine right after reset (R48), with the suggested parameters. DESIGN CHOICE for the parameters (log 2). -/
def State.reset : State := State.resetWith Config.suggested

end Sys2Proof.Machine
end

