-- ==== Sys2Proof/Machine/Flags.lean ====
section
/-! DEFINITION. `FIPS_STATUS` and its bits (R35), the gate state (R36), `FIPS_INJECT` (R38) and the result codes (R34). The
block has no arithmetic flags (R34). -/

namespace Sys2Proof.Machine

/-- The number of a result kind in `RES` (R34). -/
def Result.code : Result → BitVec 8
  | .ok => 0
  | .fail => 1
  | .retry => 2
  | .reseedNeeded => 3

/-- `ERR_TRNG_RCT`, bit 1 (R35). -/
def errTrngRct : Word := 0x00000002

/-- `ERR_TRNG_APT`, bit 2 (R35). -/
def errTrngApt : Word := 0x00000004

/-- `ERR_SHA256`, bit 4 (R35). -/
def errSha256 : Word := 0x00000010

/-- `ERR_HMAC_SHA256`, bit 5 (R35). -/
def errHmacSha256 : Word := 0x00000020

/-- `ERR_HMAC_DRBG`, bit 6 (R35). -/
def errHmacDrbg : Word := 0x00000040

/-- `ERR_ECDSA`, bit 7 (R35). -/
def errEcdsa : Word := 0x00000080

/-- `ERR_RSA2048`, bit 8 (R35). -/
def errRsa2048 : Word := 0x00000100

/-- `ERR_AES256`, bit 9 (R35). -/
def errAes256 : Word := 0x00000200

/-- `ERROR_MASK` (R35). -/
def errorMask : Word := 0x0000FFFF

/-- `POWER_UP_TEST_DONE`, bit 30 (R35). -/
def powerUpTestDone : Word := 0x40000000

/-- `MODE_ACTIVE`, bit 31 (R35). -/
def modeActive : Word := 0x80000000

/-- `(FIPS_STATUS & ERROR_MASK) != 0` (R36). -/
def State.hasError (s : State) : Bool := s.fipsStatus &&& errorMask != 0

/-- `POWER_UP_TEST_DONE = 1` (R36). -/
def State.testsDone (s : State) : Bool := s.fipsStatus &&& powerUpTestDone != 0

/-- `crypto_allowed` (R36). -/
def State.cryptoAllowed (s : State) : Bool := s.testsDone && !s.hasError

/-- The gate states that an agent can see between commands (R36); `POWER_UP_TESTS_RUNNING` exists only inside
`FIPS_POWER_ON`. -/
inductive GateState where
  | uninitialized
  | modeActive
  | error
  deriving DecidableEq, Repr

/-- The gate state between commands (R36). -/
def State.gateState (s : State) : GateState :=
  if s.hasError then .error else if s.testsDone then .modeActive else .uninitialized

/-- The fault-injection bits at the positions of their error bits (R38). -/
def State.injected (s : State) (bits : Word) : Bool := s.fipsInject.setWidth 32 &&& bits != 0

end Sys2Proof.Machine
end

