-- ==== Sys2Proof/Machine/Operands.lean ====
section
/-! DEFINITION. Operand forms: ports (R31, R80, R81), word operands (R32), and the selectors of R111 and R112. -/

namespace Sys2Proof.Machine

/-- The six ports (R31, R80). -/
inductive Port where
  | in0
  | in1
  | in2
  | in3
  | out0
  | out1
  deriving DecidableEq, Repr

/-- The content of a port. -/
def State.port (s : State) : Port → Bytes
  | .in0 => s.in0
  | .in1 => s.in1
  | .in2 => s.in2
  | .in3 => s.in3
  | .out0 => s.out0
  | .out1 => s.out1

/-- The byte at location (port, offset) (R80); `none` past the port's length (R81). -/
def State.readPortByte (s : State) (p : Port) (off : Nat) : Option Byte := (s.port p)[off]?

/-- A word operand (R32): exactly 4 bytes, little-endian; `none` for any other length. -/
def wordOperand (port : Bytes) : Option Word :=
  if port.length = 4 then some (BitVec.ofNat 32 (le port)) else none

/-- A word in an output port (R32). -/
def wordBytes (w : Word) : Bytes := toLE w.toNat 4

/-- The hash tags of R111. -/
def hashOfTag (tag : BitVec 4) : Option HashAlg :=
  if tag = 1 then some .sha1
  else if tag = 2 then some .sha224
  else if tag = 3 then some .sha256
  else if tag = 4 then some .sha384
  else if tag = 5 then some .sha512
  else none

/-- The path selectors `AUTO`, `SW`, `HW` of R113. -/
inductive PathSel where
  | auto
  | sw
  | hw
  deriving DecidableEq, Repr

/-- `ARG[1:0]` of `HASH_INIT` and `HMAC_INIT` (R113); 3 is illegal (R116). -/
def pathOfBits (path : BitVec 2) : Option PathSel :=
  if path = 0 then some .auto else if path = 1 then some .sw else if path = 2 then some .hw else none

/-- The AES key length in bytes that `ALG` names (R111, R320). -/
def aesKeyLen (keysize : BitVec 4) : Option Nat :=
  if keysize = 0 then some 16 else if keysize = 1 then some 24 else if keysize = 2 then some 32 else none

/-- The paddings of the RSA wrappers (R111) with the hash where the padding has one. -/
inductive Padding where
  | null
  | pkcs1
  | pkcs1Hash (h : HashAlg)
  | oaep (h : HashAlg)
  | pss (h : HashAlg)
  deriving DecidableEq, Repr

/-- The hash selector of the RSA wrappers (R112): SHA-224 has no prefix and is refused (R287). -/
def rsaHashOfTag (tag : BitVec 4) : Option HashAlg := if tag = 2 then none else hashOfTag tag

/-- The legal selectors of `RSA_ENCRYPT` and `RSA_DECRYPT` (R295). -/
def cipherPadding (padding hash : BitVec 4) : Option Padding :=
  if padding = 0 then (if hash = 0 then some .null else none)
  else if padding = 1 then (if hash = 0 then some .pkcs1 else none)
  else if padding = 2 then (rsaHashOfTag hash).map .oaep
  else none

/-- The legal selectors of `RSA_SIGN` and `RSA_VERIFY` (R295). -/
def signaturePadding (padding hash : BitVec 4) : Option Padding :=
  if padding = 0 then (if hash = 0 then some .null else none)
  else if padding = 1 then (rsaHashOfTag hash).map .pkcs1Hash
  else if padding = 3 then (rsaHashOfTag hash).map .pss
  else none

/-- The known-answer tests of R362. -/
inductive KatId where
  | sha256
  | hmacSha256
  | ecdsa
  | aes256
  | hmacDrbg
  | rsa2048
  deriving DecidableEq, Repr

/-- The `ALG` values of `FIPS_KAT` (R111, R362). -/
def katOfSel (kat : BitVec 4) : Option KatId :=
  if kat = 1 then some .sha256
  else if kat = 2 then some .hmacSha256
  else if kat = 3 then some .ecdsa
  else if kat = 4 then some .aes256
  else if kat = 5 then some .hmacDrbg
  else if kat = 6 then some .rsa2048
  else none

end Sys2Proof.Machine
end

