-- ==== Sys2Proof/Machine/Aes.lean ====
section
/-! DEFINITION. The AES block cipher (R321 to R324) and the datapaths around it as functions (R327 to R331). -/

namespace Sys2Proof.Machine

/-- The table `S`, row `i` the entries for the bytes `16*i ..` (R321). -/
def sboxRows : List (List Byte) :=
  [[0x63, 0x7c, 0x77, 0x7b, 0xf2, 0x6b, 0x6f, 0xc5, 0x30, 0x01, 0x67, 0x2b, 0xfe, 0xd7, 0xab, 0x76]] ++
  [[0xca, 0x82, 0xc9, 0x7d, 0xfa, 0x59, 0x47, 0xf0, 0xad, 0xd4, 0xa2, 0xaf, 0x9c, 0xa4, 0x72, 0xc0]] ++
  [[0xb7, 0xfd, 0x93, 0x26, 0x36, 0x3f, 0xf7, 0xcc, 0x34, 0xa5, 0xe5, 0xf1, 0x71, 0xd8, 0x31, 0x15]] ++
  [[0x04, 0xc7, 0x23, 0xc3, 0x18, 0x96, 0x05, 0x9a, 0x07, 0x12, 0x80, 0xe2, 0xeb, 0x27, 0xb2, 0x75]] ++
  [[0x09, 0x83, 0x2c, 0x1a, 0x1b, 0x6e, 0x5a, 0xa0, 0x52, 0x3b, 0xd6, 0xb3, 0x29, 0xe3, 0x2f, 0x84]] ++
  [[0x53, 0xd1, 0x00, 0xed, 0x20, 0xfc, 0xb1, 0x5b, 0x6a, 0xcb, 0xbe, 0x39, 0x4a, 0x4c, 0x58, 0xcf]] ++
  [[0xd0, 0xef, 0xaa, 0xfb, 0x43, 0x4d, 0x33, 0x85, 0x45, 0xf9, 0x02, 0x7f, 0x50, 0x3c, 0x9f, 0xa8]] ++
  [[0x51, 0xa3, 0x40, 0x8f, 0x92, 0x9d, 0x38, 0xf5, 0xbc, 0xb6, 0xda, 0x21, 0x10, 0xff, 0xf3, 0xd2]] ++
  [[0xcd, 0x0c, 0x13, 0xec, 0x5f, 0x97, 0x44, 0x17, 0xc4, 0xa7, 0x7e, 0x3d, 0x64, 0x5d, 0x19, 0x73]] ++
  [[0x60, 0x81, 0x4f, 0xdc, 0x22, 0x2a, 0x90, 0x88, 0x46, 0xee, 0xb8, 0x14, 0xde, 0x5e, 0x0b, 0xdb]] ++
  [[0xe0, 0x32, 0x3a, 0x0a, 0x49, 0x06, 0x24, 0x5c, 0xc2, 0xd3, 0xac, 0x62, 0x91, 0x95, 0xe4, 0x79]] ++
  [[0xe7, 0xc8, 0x37, 0x6d, 0x8d, 0xd5, 0x4e, 0xa9, 0x6c, 0x56, 0xf4, 0xea, 0x65, 0x7a, 0xae, 0x08]] ++
  [[0xba, 0x78, 0x25, 0x2e, 0x1c, 0xa6, 0xb4, 0xc6, 0xe8, 0xdd, 0x74, 0x1f, 0x4b, 0xbd, 0x8b, 0x8a]] ++
  [[0x70, 0x3e, 0xb5, 0x66, 0x48, 0x03, 0xf6, 0x0e, 0x61, 0x35, 0x57, 0xb9, 0x86, 0xc1, 0x1d, 0x9e]] ++
  [[0xe1, 0xf8, 0x98, 0x11, 0x69, 0xd9, 0x8e, 0x94, 0x9b, 0x1e, 0x87, 0xe9, 0xce, 0x55, 0x28, 0xdf]] ++
  [[0x8c, 0xa1, 0x89, 0x0d, 0xbf, 0xe6, 0x42, 0x68, 0x41, 0x99, 0x2d, 0x0f, 0xb0, 0x54, 0xbb, 0x16]]

/-- The table `IS` in the same form (R321). -/
def invSboxRows : List (List Byte) :=
  [[0x52, 0x09, 0x6a, 0xd5, 0x30, 0x36, 0xa5, 0x38, 0xbf, 0x40, 0xa3, 0x9e, 0x81, 0xf3, 0xd7, 0xfb]] ++
  [[0x7c, 0xe3, 0x39, 0x82, 0x9b, 0x2f, 0xff, 0x87, 0x34, 0x8e, 0x43, 0x44, 0xc4, 0xde, 0xe9, 0xcb]] ++
  [[0x54, 0x7b, 0x94, 0x32, 0xa6, 0xc2, 0x23, 0x3d, 0xee, 0x4c, 0x95, 0x0b, 0x42, 0xfa, 0xc3, 0x4e]] ++
  [[0x08, 0x2e, 0xa1, 0x66, 0x28, 0xd9, 0x24, 0xb2, 0x76, 0x5b, 0xa2, 0x49, 0x6d, 0x8b, 0xd1, 0x25]] ++
  [[0x72, 0xf8, 0xf6, 0x64, 0x86, 0x68, 0x98, 0x16, 0xd4, 0xa4, 0x5c, 0xcc, 0x5d, 0x65, 0xb6, 0x92]] ++
  [[0x6c, 0x70, 0x48, 0x50, 0xfd, 0xed, 0xb9, 0xda, 0x5e, 0x15, 0x46, 0x57, 0xa7, 0x8d, 0x9d, 0x84]] ++
  [[0x90, 0xd8, 0xab, 0x00, 0x8c, 0xbc, 0xd3, 0x0a, 0xf7, 0xe4, 0x58, 0x05, 0xb8, 0xb3, 0x45, 0x06]] ++
  [[0xd0, 0x2c, 0x1e, 0x8f, 0xca, 0x3f, 0x0f, 0x02, 0xc1, 0xaf, 0xbd, 0x03, 0x01, 0x13, 0x8a, 0x6b]] ++
  [[0x3a, 0x91, 0x11, 0x41, 0x4f, 0x67, 0xdc, 0xea, 0x97, 0xf2, 0xcf, 0xce, 0xf0, 0xb4, 0xe6, 0x73]] ++
  [[0x96, 0xac, 0x74, 0x22, 0xe7, 0xad, 0x35, 0x85, 0xe2, 0xf9, 0x37, 0xe8, 0x1c, 0x75, 0xdf, 0x6e]] ++
  [[0x47, 0xf1, 0x1a, 0x71, 0x1d, 0x29, 0xc5, 0x89, 0x6f, 0xb7, 0x62, 0x0e, 0xaa, 0x18, 0xbe, 0x1b]] ++
  [[0xfc, 0x56, 0x3e, 0x4b, 0xc6, 0xd2, 0x79, 0x20, 0x9a, 0xdb, 0xc0, 0xfe, 0x78, 0xcd, 0x5a, 0xf4]] ++
  [[0x1f, 0xdd, 0xa8, 0x33, 0x88, 0x07, 0xc7, 0x31, 0xb1, 0x12, 0x10, 0x59, 0x27, 0x80, 0xec, 0x5f]] ++
  [[0x60, 0x51, 0x7f, 0xa9, 0x19, 0xb5, 0x4a, 0x0d, 0x2d, 0xe5, 0x7a, 0x9f, 0x93, 0xc9, 0x9c, 0xef]] ++
  [[0xa0, 0xe0, 0x3b, 0x4d, 0xae, 0x2a, 0xf5, 0xb0, 0xc8, 0xeb, 0xbb, 0x3c, 0x83, 0x53, 0x99, 0x61]] ++
  [[0x17, 0x2b, 0x04, 0x7e, 0xba, 0x77, 0xd6, 0x26, 0xe1, 0x69, 0x14, 0x63, 0x55, 0x21, 0x0c, 0x7d]]

/-- The entry of a 16 by 16 table for a byte (R321). -/
def tableAt (rows : List (List Byte)) (a : Byte) : Byte := (rows.getD (a.toNat / 16) []).getD (a.toNat % 16) 0

/-- `S[a]` (R321). -/
def sbox (a : Byte) : Byte := tableAt sboxRows a

/-- `IS[a]` (R321). -/
def invSbox (a : Byte) : Byte := tableAt invSboxRows a

/-- `xtime(a)` (R321). -/
def xtime (a : Byte) : Byte := (a <<< 1) ^^^ (if a.getLsbD 7 then 0x1b else 0)

/-- The field product of `a` with the lowest `n` bits of `c` (R321): the sum of `xtime^i(a)` over the bits `i` of `c`. -/
def gmulBits : Nat → Byte → Byte → Byte
  | 0, _, _ => 0
  | n + 1, c, a => (if c.getLsbD 0 then a else 0) ^^^ gmulBits n (c >>> 1) (xtime a)

/-- `c • a` (R321). -/
def gmul (c a : Byte) : Byte := gmulBits 8 c a

/-- `SubBytes` (R323) and `SubWord` (R322). -/
def subBytes (st : Bytes) : Bytes := st.map sbox

/-- `InvSubBytes` (R324). -/
def invSubBytes (st : Bytes) : Bytes := st.map invSbox

/-- `ShiftRows` (R323) on the 16-byte form, whose byte `r + 4*c` is `st[r][c]` (R321). -/
def shiftRows (st : Bytes) : Bytes :=
  (List.range 16).map fun i => st.getD (i % 4 + 4 * ((i / 4 + i % 4) % 4)) 0

/-- `InvShiftRows` (R324): row `r` is rotated right by `r`. -/
def invShiftRows (st : Bytes) : Bytes :=
  (List.range 16).map fun i => st.getD (i % 4 + 4 * ((i / 4 + 4 - i % 4) % 4)) 0

/-- One column times the circulant matrix with first row `(m0, m1, m2, m3)` (R323, R324). -/
def mixColumn (m0 m1 m2 m3 : Byte) (a0 a1 a2 a3 : Byte) : Bytes :=
  [ gmul m0 a0 ^^^ gmul m1 a1 ^^^ gmul m2 a2 ^^^ gmul m3 a3,
    gmul m3 a0 ^^^ gmul m0 a1 ^^^ gmul m1 a2 ^^^ gmul m2 a3,
    gmul m2 a0 ^^^ gmul m3 a1 ^^^ gmul m0 a2 ^^^ gmul m1 a3,
    gmul m1 a0 ^^^ gmul m2 a1 ^^^ gmul m3 a2 ^^^ gmul m0 a3 ]

/-- Every whole column of a state times the circulant matrix. -/
def mixWith (m0 m1 m2 m3 : Byte) : Bytes → Bytes
  | a0 :: a1 :: a2 :: a3 :: rest => mixColumn m0 m1 m2 m3 a0 a1 a2 a3 ++ mixWith m0 m1 m2 m3 rest
  | _ => []

/-- `MixColumns` (R323). -/
def mixColumns (st : Bytes) : Bytes := mixWith 0x02 0x03 0x01 0x01 st

/-- `InvMixColumns` (R324). -/
def invMixColumns (st : Bytes) : Bytes := mixWith 0x0e 0x0b 0x0d 0x09 st

/-- `Rcon[1..10]` (R322). -/
def rcon : List Byte := [0x01, 0x02, 0x04, 0x08, 0x10, 0x20, 0x40, 0x80, 0x1b, 0x36]

/-- `RotWord` (R322). -/
def rotWord (w : Bytes) : Bytes := w.drop 1 ++ w.take 1

/-- The word `w[i]` of the key expansion from the words before it, newest first (R322). -/
def nextKeyWord (nk i : Nat) (ws : List Bytes) : Bytes :=
  let t := ws.getD 0 []
  let t :=
    if i % nk = 0 then xorBytes (subBytes (rotWord t)) [rcon.getD (i / nk - 1) 0, 0, 0, 0]
    else if nk = 8 ∧ i % nk = 4 then subBytes t
    else t
  xorBytes (ws.getD (nk - 1) []) t

/-- `n` further words of the key expansion from word `i` on, newest first (R322). -/
def expandKey (nk : Nat) : Nat → Nat → List Bytes → List Bytes
  | 0, _, ws => ws
  | n + 1, i, ws => expandKey nk n (i + 1) (nextKeyWord nk i ws :: ws)

/-- The round keys `rk[0..Nr]`, 16 bytes each (R322); `Nr = Nk + 6`. -/
def roundKeys (key : Bytes) : List Bytes :=
  let nk := key.length / 4
  let ws := expandKey nk (4 * (nk + 7) - nk) nk (chunks 4 key).reverse
  chunks 16 ws.reverse.flatten

/-- The rounds of R323 over the round keys `rk[1..Nr]`. -/
def encryptRounds : List Bytes → Bytes → Bytes
  | [], st => st
  | [rk], st => xorBytes (shiftRows (subBytes st)) rk
  | rk :: rks, st => encryptRounds rks (xorBytes (mixColumns (shiftRows (subBytes st))) rk)

/-- The rounds of R324 over the round keys `rk[Nr-1], .., rk[0]`. -/
def decryptRounds : List Bytes → Bytes → Bytes
  | [], st => st
  | [rk], st => xorBytes (invSubBytes (invShiftRows st)) rk
  | rk :: rks, st => decryptRounds rks (invMixColumns (xorBytes (invSubBytes (invShiftRows st)) rk))

/-- `E` under given round keys (R323). -/
def encryptBlock (rks : List Bytes) (block : Bytes) : Bytes :=
  encryptRounds (rks.drop 1) (xorBytes block (rks.getD 0 []))

/-- `D` under given round keys (R324). -/
def decryptBlock (rks : List Bytes) (block : Bytes) : Bytes :=
  decryptRounds (rks.reverse.drop 1) (xorBytes block (rks.reverse.getD 0 []))

/-- `E(key, in)` (R323). -/
def aesE (key block : Bytes) : Bytes := encryptBlock (roundKeys key) block

/-- `D(key, in)` (R324). -/
def aesD (key block : Bytes) : Bytes := decryptBlock (roundKeys key) block

/-- The loop of R327 over the pieces of the data, from counter value `c`. -/
def ctrBlocks (key : Bytes) : Nat → List Bytes → Bytes
  | _, [] => []
  | c, b :: bs => xorBytes b (aesE key (toBE (c % 2 ^ 128) 16)) ++ ctrBlocks key (c + 1) bs

/-- Counter mode (R327). -/
def aesCtr (key iv data : Bytes) : Bytes := ctrBlocks key (be iv) (chunks 16 data)

/-- The loop of R328: the ciphertext and the last chaining value. -/
def cbcEncBlocks (key : Bytes) : Bytes → List Bytes → Bytes × Bytes
  | prev, [] => ([], prev)
  | prev, b :: bs =>
    let c := aesE key (xorBytes b prev)
    let rest := cbcEncBlocks key c bs
    (c ++ rest.1, rest.2)

/-- Cipher block chaining, encrypt (R328): `OUT0` and `OUT1`. -/
def aesCbcEnc (key iv data : Bytes) : Bytes × Bytes := cbcEncBlocks key iv (chunks 16 data)

/-- The loop of R329. -/
def cbcDecBlocks (key : Bytes) : Bytes → List Bytes → Bytes × Bytes
  | prev, [] => ([], prev)
  | prev, c :: cs =>
    let rest := cbcDecBlocks key c cs
    (xorBytes (aesD key c) prev ++ rest.1, rest.2)

/-- Cipher block chaining, decrypt (R329): `OUT0` and `OUT1`. -/
def aesCbcDec (key iv data : Bytes) : Bytes × Bytes := cbcDecBlocks key iv (chunks 16 data)

/-- `dbl(b)` (R330). -/
def cmacDbl (b : Bytes) : Bytes :=
  let v := (be b * 2) % 2 ^ 128
  toBE (if be b / 2 ^ 127 % 2 = 1 then v ^^^ 0x87 else v) 16

/-- The chaining of R331 over all blocks but the last. -/
def cmacChain (key : Bytes) : Bytes → List Bytes → Bytes
  | x, [] => x
  | x, b :: bs => cmacChain key (aesE key (xorBytes x b)) bs

/-- CMAC (R331). -/
def aesCmac (key m : Bytes) : Bytes :=
  let sub1 := cmacDbl (aesE key (zeros 16))
  let sub2 := cmacDbl sub1
  let n := max 1 ((m.length + 15) / 16)
  let tail := m.drop (16 * (n - 1))
  let last :=
    if m.length > 0 ∧ m.length % 16 = 0 then xorBytes tail sub1
    else xorBytes (tail ++ 0x80 :: zeros (16 * n - m.length - 1)) sub2
  aesE key (xorBytes (cmacChain key (zeros 16) (chunks 16 (m.take (16 * (n - 1))))) last)

end Sys2Proof.Machine
end

