-- ==== Sys2Proof/Machine/Ops.lean ====
section
/-! DEFINITION. The shared operations of the commands: how a command ends (R15, R31), the gate check (R392), the engine lock
(R84), `raise Fatal` (R394) and beside it the reset events that alone lead out of it (R397, R420), the slot files, and the
requests to the noise source and the draws (R15). -/

namespace Sys2Proof.Machine

/-- The end of a command: `RES` and both output ports (R15, R31, R34). -/
def State.ret (s : State) (r : Result) (out0 out1 : Bytes) : State :=
  { s with out0 := out0, out1 := out1, res := r.code }

/-- `return FAIL`, with both output ports empty (R31). -/
def State.fail (s : State) : State := s.ret .fail [] []

/-- `return OK` with no output. -/
def State.done (s : State) : State := s.ret .ok [] []

/-- `OUT0 <- v ; return OK`. -/
def State.answer (s : State) (v : Bytes) : State := s.ret .ok v []

/-- The verdict commands: `OK` or `FAIL`, no output. -/
def State.verdict (s : State) (good : Bool) : State := if good then s.done else s.fail

/-- The gate check that begins every gated command (R392). -/
def State.gated (s : State) (body : State → State) : State := if s.cryptoAllowed then body s else s.fail

/-- The engine lock around a command that uses the AES, bignum or ECC accelerator (R84): taken at its start, released on
every path. -/
def State.withEngine (s : State) (body : State → State) : State :=
  { body { s with engineBusy := true } with engineBusy := false }

/-- `raise Fatal(bits)` (R394), the one thing in the place of taking an exception: the error bits are ORed into
`FIPS_STATUS` and the persisted flag is cleared. Nothing else is saved or changed. -/
def State.raiseFatal (s : State) (bits : Word) : State :=
  { s with fipsStatus := s.fipsStatus ||| (bits &&& errorMask), pwrupDonePersist := false }

/-- The latch follows error bits that are recorded without a health step: `TRNG.failed` is equivalent to one of the two TRNG
bits (R44). DEDUCED (log 12): R366 does not name it. -/
def State.latchTrng (s : State) (bits : Word) : State :=
  { s with trng := { s.trng with failed := s.trng.failed || bits &&& (errTrngRct ||| errTrngApt) != 0 } }

/-- What both reset events do (R48, R405): everything but the persisted flag. What R48 calls unspecified becomes a free
value of this reset event (logs 5 and 6). -/
def State.resetCommon (s : State) : State :=
  let i := s.env.resetCount
  { s with
    cmd := BitVec.ofNat 32 (Config.freeAfterReset i 64)
    in0 := (Config.freePort i 0).take s.cfg.maxBuf
    in1 := (Config.freePort i 1).take s.cfg.maxBuf
    in2 := (Config.freePort i 2).take s.cfg.maxBuf
    in3 := (Config.freePort i 3).take s.cfg.maxBuf
    out0 := []
    out1 := []
    res := BitVec.ofNat 8 (Config.freeAfterReset i 65)
    fipsStatus := 0
    fipsInject := 0
    shaHwOwner := none
    engineBusy := false
    ctx := Vector.replicate 16 .none
    drbg := drbgAfterReset i
    trng := Trng.afterReset
    env := { s.env with resetCount := i + 1 } }

/-- The `RESUME` event (R48, R420): the persisted flag is kept. -/
def State.resume (s : State) : State := s.resetCommon

/-- The `HARD_RESET` event (R48, R420): the persisted flag is cleared. -/
def State.hardReset (s : State) : State := { s.resetCommon with pwrupDonePersist := false }

/-- The context in slot `i`. -/
def State.ctxAt (s : State) (i : BitVec 4) : CtxSlot := s.ctx[i.toNat]'i.isLt

/-- `CTX[i] <- c`. -/
def State.setCtx (s : State) (i : BitVec 4) (c : CtxSlot) : State :=
  { s with ctx := s.ctx.set i.toNat c i.isLt }

/-- Slot `i` is a context slot: `i < N_CTX` (R112). -/
def State.isCtxSlot (s : State) (i : BitVec 4) : Bool := i.toNat < s.cfg.nCtx

/-- The DRBG instance in slot `i`. -/
def State.drbgAt (s : State) (i : BitVec 4) : Drbg := s.drbg[i.toNat]'i.isLt

/-- `DRBG[i] <- d`. -/
def State.setDrbg (s : State) (i : BitVec 4) (d : Drbg) : State :=
  { s with drbg := s.drbg.set i.toNat d i.isLt }

/-- Slot `i` is a DRBG slot: `i < N_DRBG` (R112). -/
def State.isDrbgSlot (s : State) (i : BitVec 4) : Bool := i.toNat < s.cfg.nDrbg

/-- The next answer of the noise source: the next one placed, else a free value (R15; log 3). -/
def Env.nextNoise (e : Env) : Word :=
  match e.noise with
  | w :: _ => w
  | [] => Config.freeNoise e.noiseCount

/-- The inputs after one request to the noise source: the word is never returned again (R89). -/
def Env.afterNoise (e : Env) : Env := { e with noise := e.noise.tail, noiseCount := e.noiseCount + 1 }

/-- `noise()` (R15): the word and the state after it. -/
def State.noiseWord (s : State) : Word × State := (s.env.nextNoise, { s with env := s.env.afterNoise })

/-- The next draw: the next one placed, else a free value (R15; log 4). -/
def Env.nextDraw (e : Env) : Nat :=
  match e.draws with
  | d :: _ => d
  | [] => Config.freeDraw e.drawCount

/-- The inputs after one draw. -/
def Env.afterDraw (e : Env) : Env := { e with draws := e.draws.tail, drawCount := e.drawCount + 1 }

/-- `draw(n)` (R15): an `n`-bit value under no law. -/
def State.draw (s : State) (n : Nat) : Nat × State :=
  (s.env.nextDraw % 2 ^ n, { s with env := s.env.afterDraw })

/-- A `draw(n)` restricted to values other than 0 (R282, R289): every value from 1 to `2^n - 1` is possible (log 4). -/
def State.drawNonzero (s : State) (n : Nat) : Nat × State :=
  let (x, s') := s.draw n
  (if x = 0 then 1 else x, s')

/-- `n` bytes, each a draw (R290, R292). -/
def State.drawBytes : Nat → State → Bytes × State
  | 0, s => ([], s)
  | n + 1, s =>
    let (x, s') := s.draw 8
    let (rest, s'') := State.drawBytes n s'
    (BitVec.ofNat 8 x :: rest, s'')

/-- `n` bytes, each a draw from 1..255 (R289). -/
def State.drawNonzeroBytes : Nat → State → Bytes × State
  | 0, s => ([], s)
  | n + 1, s =>
    let (x, s') := s.drawNonzero 8
    let (rest, s'') := State.drawNonzeroBytes n s'
    (BitVec.ofNat 8 x :: rest, s'')

end Sys2Proof.Machine
end

