-- ==== Sys2Proof/Machine/AesCmds.lean ====
section
/-! DEFINITION. The meanings of the AES unit (R325 to R329, R331). All are gated and hold the engine lock (R320). -/

namespace Sys2Proof.Machine

/-- The frame of the six AES commands: the engine lock (R84) around `aes_prologue` (section 3 of 46_aes.md). -/
def State.aesCommand (s : State) (keysize : BitVec 4) (body : State → State) : State :=
  s.withEngine fun s => s.gated fun s => if aesKeyLen keysize = some s.in0.length then body s else s.fail

/-- `AES_ECB_ENC.keysize` (R325). -/
def execAesEcbEnc (keysize : BitVec 4) (s : State) : Outcome :=
  .next (s.aesCommand keysize fun s =>
    if s.in2.length = 16 then s.answer (aesE s.in0 s.in2) else s.fail)

/-- `AES_ECB_DEC.keysize` (R326). -/
def execAesEcbDec (keysize : BitVec 4) (s : State) : Outcome :=
  .next (s.aesCommand keysize fun s =>
    if s.in2.length = 16 then s.answer (aesD s.in0 s.in2) else s.fail)

/-- `AES_CTR.keysize` (R327). -/
def execAesCtr (keysize : BitVec 4) (s : State) : Outcome :=
  .next (s.aesCommand keysize fun s =>
    if s.in1.length = 16 then s.answer (aesCtr s.in0 s.in1 s.in2) else s.fail)

/-- `AES_CBC_ENC.keysize` (R328). -/
def execAesCbcEnc (keysize : BitVec 4) (s : State) : Outcome :=
  .next (s.aesCommand keysize fun s =>
    if s.in1.length = 16 ∧ s.in2.length % 16 = 0 then
      let out := aesCbcEnc s.in0 s.in1 s.in2
      s.ret .ok out.1 out.2
    else s.fail)

/-- `AES_CBC_DEC.keysize` (R329). -/
def execAesCbcDec (keysize : BitVec 4) (s : State) : Outcome :=
  .next (s.aesCommand keysize fun s =>
    if s.in1.length = 16 ∧ s.in2.length % 16 = 0 then
      let out := aesCbcDec s.in0 s.in1 s.in2
      s.ret .ok out.1 out.2
    else s.fail)

/-- `AES_CMAC.keysize` (R331). -/
def execAesCmac (keysize : BitVec 4) (s : State) : Outcome :=
  .next (s.aesCommand keysize fun s => s.answer (aesCmac s.in0 s.in2))

end Sys2Proof.Machine
end

