-- ==== Sys2Proof/Machine/Hash.lean ====
section
/-! DEFINITION. The hash functions of R141 to R147 and the context operations of R148 to R152 as functions on a context. -/

namespace Sys2Proof.Machine

/-- `BLOCK_BYTES` (R141). -/
def HashAlg.blockBytes : HashAlg → Nat
  | .sha1 => 64
  | .sha224 => 64
  | .sha256 => 64
  | .sha384 => 128
  | .sha512 => 128

/-- The size of the length field in bytes (R141). -/
def HashAlg.lengthBytes : HashAlg → Nat
  | .sha1 => 8
  | .sha224 => 8
  | .sha256 => 8
  | .sha384 => 16
  | .sha512 => 16

/-- `DIGEST_BYTES` (R9, R141). -/
def HashAlg.digestBytes : HashAlg → Nat
  | .sha1 => 20
  | .sha224 => 28
  | .sha256 => 32
  | .sha384 => 48
  | .sha512 => 64

/-- `IV(alg)` (R141). -/
def HashAlg.iv : HashAlg → HashWords
  | .sha1 => .core1 ⟨0x67452301, 0xefcdab89, 0x98badcfe, 0x10325476, 0xc3d2e1f0⟩
  | .sha224 => .core256 ⟨0xc1059ed8, 0x367cd507, 0x3070dd17, 0xf70e5939, 0xffc00b31, 0x68581511, 0x64f98fa7, 0xbefa4fa4⟩
  | .sha256 => .core256 ⟨0x6a09e667, 0xbb67ae85, 0x3c6ef372, 0xa54ff53a, 0x510e527f, 0x9b05688c, 0x1f83d9ab, 0x5be0cd19⟩
  | .sha384 => .core512 ⟨0xcbbb9d5dc1059ed8, 0x629a292a367cd507, 0x9159015a3070dd17, 0x152fecd8f70e5939,
      0x67332667ffc00b31, 0x8eb44a8768581511, 0xdb0c2e0d64f98fa7, 0x47b5481dbefa4fa4⟩
  | .sha512 => .core512 ⟨0x6a09e667f3bcc908, 0xbb67ae8584caa73b, 0x3c6ef372fe94f82b, 0xa54ff53a5f1d36f1,
      0x510e527fade682d1, 0x9b05688c2b3e6c1f, 0x1f83d9abfb41bd6b, 0x5be0cd19137e2179⟩

/-- `K1(t)` for rounds 0..79, in order (R142). -/
def k1 : List (BitVec 32) :=
  List.replicate 20 0x5a827999 ++ List.replicate 20 0x6ed9eba1 ++
    List.replicate 20 0x8f1bbcdc ++ List.replicate 20 0xca62c1d6

/-- `K256[0..63]`, row by row (R142). -/
def k256 : List (BitVec 32) :=
  [0x428a2f98, 0x71374491, 0xb5c0fbcf, 0xe9b5dba5, 0x3956c25b, 0x59f111f1, 0x923f82a4, 0xab1c5ed5] ++
  [0xd807aa98, 0x12835b01, 0x243185be, 0x550c7dc3, 0x72be5d74, 0x80deb1fe, 0x9bdc06a7, 0xc19bf174] ++
  [0xe49b69c1, 0xefbe4786, 0x0fc19dc6, 0x240ca1cc, 0x2de92c6f, 0x4a7484aa, 0x5cb0a9dc, 0x76f988da] ++
  [0x983e5152, 0xa831c66d, 0xb00327c8, 0xbf597fc7, 0xc6e00bf3, 0xd5a79147, 0x06ca6351, 0x14292967] ++
  [0x27b70a85, 0x2e1b2138, 0x4d2c6dfc, 0x53380d13, 0x650a7354, 0x766a0abb, 0x81c2c92e, 0x92722c85] ++
  [0xa2bfe8a1, 0xa81a664b, 0xc24b8b70, 0xc76c51a3, 0xd192e819, 0xd6990624, 0xf40e3585, 0x106aa070] ++
  [0x19a4c116, 0x1e376c08, 0x2748774c, 0x34b0bcb5, 0x391c0cb3, 0x4ed8aa4a, 0x5b9cca4f, 0x682e6ff3] ++
  [0x748f82ee, 0x78a5636f, 0x84c87814, 0x8cc70208, 0x90befffa, 0xa4506ceb, 0xbef9a3f7, 0xc67178f2]

/-- `K512[0..79]`, row by row (R142). -/
def k512 : List (BitVec 64) :=
  [0x428a2f98d728ae22, 0x7137449123ef65cd, 0xb5c0fbcfec4d3b2f, 0xe9b5dba58189dbbc] ++
  [0x3956c25bf348b538, 0x59f111f1b605d019, 0x923f82a4af194f9b, 0xab1c5ed5da6d8118] ++
  [0xd807aa98a3030242, 0x12835b0145706fbe, 0x243185be4ee4b28c, 0x550c7dc3d5ffb4e2] ++
  [0x72be5d74f27b896f, 0x80deb1fe3b1696b1, 0x9bdc06a725c71235, 0xc19bf174cf692694] ++
  [0xe49b69c19ef14ad2, 0xefbe4786384f25e3, 0x0fc19dc68b8cd5b5, 0x240ca1cc77ac9c65] ++
  [0x2de92c6f592b0275, 0x4a7484aa6ea6e483, 0x5cb0a9dcbd41fbd4, 0x76f988da831153b5] ++
  [0x983e5152ee66dfab, 0xa831c66d2db43210, 0xb00327c898fb213f, 0xbf597fc7beef0ee4] ++
  [0xc6e00bf33da88fc2, 0xd5a79147930aa725, 0x06ca6351e003826f, 0x142929670a0e6e70] ++
  [0x27b70a8546d22ffc, 0x2e1b21385c26c926, 0x4d2c6dfc5ac42aed, 0x53380d139d95b3df] ++
  [0x650a73548baf63de, 0x766a0abb3c77b2a8, 0x81c2c92e47edaee6, 0x92722c851482353b] ++
  [0xa2bfe8a14cf10364, 0xa81a664bbc423001, 0xc24b8b70d0f89791, 0xc76c51a30654be30] ++
  [0xd192e819d6ef5218, 0xd69906245565a910, 0xf40e35855771202a, 0x106aa07032bbd1b8] ++
  [0x19a4c116b8d2d0c8, 0x1e376c085141ab53, 0x2748774cdf8eeb99, 0x34b0bcb5e19b48a8] ++
  [0x391c0cb3c5c95a63, 0x4ed8aa4ae3418acb, 0x5b9cca4f7763e373, 0x682e6ff3d6b2b8a3] ++
  [0x748f82ee5defb2fc, 0x78a5636f43172f60, 0x84c87814a1f0ab72, 0x8cc702081a6439ec] ++
  [0x90befffa23631e28, 0xa4506cebde82bde9, 0xbef9a3f7b2c67915, 0xc67178f2e372532b] ++
  [0xca273eceea26619c, 0xd186b8c721c0c207, 0xeada7dd6cde0eb1e, 0xf57d4f7fee6ed178] ++
  [0x06f067aa72176fba, 0x0a637dc5a2c898a6, 0x113f9804bef90dae, 0x1b710b35131c471b] ++
  [0x28db77f523047d84, 0x32caab7b40c72493, 0x3c9ebe0a15c9bebc, 0x431d67c49c100d4c] ++
  [0x4cc5d4becb3e42b6, 0x597f299cfc657e2a, 0x5fcb6fab3ad6faec, 0x6c44198c4a475817]

/-- The words `W[0..n-1]` of `w` bits of a block, most significant byte first (R82, R143). -/
def blockWords (w : Nat) : Nat → Bytes → List (BitVec w)
  | 0, _ => []
  | n + 1, s => BitVec.ofNat w (be (s.take (w / 8))) :: blockWords w n (s.drop (w / 8))

/-- The word extension of R144 to R146: `n` further words, `next W[t-1] W[t-2] ..` each. The list runs from the newest word
to the oldest, so that `W[t-k]` is its element `k-1`. -/
def extendWords {w : Nat} (next : List (BitVec w) → BitVec w) : Nat → List (BitVec w) → List (BitVec w)
  | 0, ws => ws
  | n + 1, ws => extendWords next n (next ws :: ws)

/-- `W[t-k]` of a list that runs from the newest word to the oldest. -/
def back {w : Nat} (ws : List (BitVec w)) (k : Nat) : BitVec w := ws.getD (k - 1) 0

/-- The round function `f` of R144 for round `t`. -/
def sha1F (t : Nat) (b c d : BitVec 32) : BitVec 32 :=
  if t < 20 then (b &&& c) ||| (~~~b &&& d)
  else if t < 40 then b ^^^ c ^^^ d
  else if t < 60 then (b &&& c) ||| (b &&& d) ||| (c &&& d)
  else b ^^^ c ^^^ d

/-- The rounds of R144 from round `t` on, over the remaining pairs of constant and word. -/
def sha1Rounds : Nat → List (BitVec 32 × BitVec 32) → Words5 → Words5
  | _, [], r => r
  | t, (k, w) :: kws, r =>
    sha1Rounds (t + 1) kws
      ⟨r.a.rotateLeft 5 + sha1F t r.b r.c r.d + r.e + k + w, r.a, r.b.rotateLeft 30, r.c, r.d⟩

/-- `Comp1(h, W)` on a block (R144). -/
def sha1Compress (h : Words5) (block : Bytes) : Words5 :=
  let next := fun ws : List (BitVec 32) => (back ws 3 ^^^ back ws 8 ^^^ back ws 14 ^^^ back ws 16).rotateLeft 1
  let ws := (extendWords next 64 (blockWords 32 16 block).reverse).reverse
  let r := sha1Rounds 0 (k1.zip ws) h
  ⟨h.a + r.a, h.b + r.b, h.c + r.c, h.d + r.d, h.e + r.e⟩

/-- What distinguishes the two SHA-2 cores (R145, R146): rotation amounts and round constants. -/
structure Sha2Core (w : Nat) where
  s0 : BitVec w → BitVec w
  s1 : BitVec w → BitVec w
  bigS0 : BitVec w → BitVec w
  bigS1 : BitVec w → BitVec w
  k : List (BitVec w)

/-- The SHA-256 core (R145). -/
def core256 : Sha2Core 32 where
  s0 x := x.rotateRight 7 ^^^ x.rotateRight 18 ^^^ (x >>> 3)
  s1 x := x.rotateRight 17 ^^^ x.rotateRight 19 ^^^ (x >>> 10)
  bigS0 x := x.rotateRight 2 ^^^ x.rotateRight 13 ^^^ x.rotateRight 22
  bigS1 x := x.rotateRight 6 ^^^ x.rotateRight 11 ^^^ x.rotateRight 25
  k := k256

/-- The SHA-512 core (R146). -/
def core512 : Sha2Core 64 where
  s0 x := x.rotateRight 1 ^^^ x.rotateRight 8 ^^^ (x >>> 7)
  s1 x := x.rotateRight 19 ^^^ x.rotateRight 61 ^^^ (x >>> 6)
  bigS0 x := x.rotateRight 28 ^^^ x.rotateRight 34 ^^^ x.rotateRight 39
  bigS1 x := x.rotateRight 14 ^^^ x.rotateRight 18 ^^^ x.rotateRight 41
  k := k512

/-- `Ch` (R145). -/
def ch {w : Nat} (x y z : BitVec w) : BitVec w := (x &&& y) ^^^ (~~~x &&& z)

/-- `Maj` (R145). -/
def maj {w : Nat} (x y z : BitVec w) : BitVec w := (x &&& y) ^^^ (x &&& z) ^^^ (y &&& z)

/-- One round of R145 with constant `k` and word `x`. -/
def sha2Round {w : Nat} (core : Sha2Core w) (r : Words8 w) (k x : BitVec w) : Words8 w :=
  let t1 := r.h + core.bigS1 r.e + ch r.e r.f r.g + k + x
  let t2 := core.bigS0 r.a + maj r.a r.b r.c
  ⟨t1 + t2, r.a, r.b, r.c, r.d + t1, r.e, r.f, r.g⟩

/-- The rounds of R145 over the remaining pairs of constant and word. -/
def sha2Rounds {w : Nat} (core : Sha2Core w) : List (BitVec w × BitVec w) → Words8 w → Words8 w
  | [], r => r
  | (k, x) :: kxs, r => sha2Rounds core kxs (sha2Round core r k x)

/-- `Comp256` and `Comp512` on a block (R145, R146). -/
def sha2Compress {w : Nat} (core : Sha2Core w) (h : Words8 w) (block : Bytes) : Words8 w :=
  let next := fun ws : List (BitVec w) => core.s1 (back ws 2) + back ws 7 + core.s0 (back ws 15) + back ws 16
  let ws := (extendWords next (core.k.length - 16) (blockWords w 16 block).reverse).reverse
  let r := sha2Rounds core (core.k.zip ws) h
  ⟨h.a + r.a, h.b + r.b, h.c + r.c, h.d + r.d, h.e + r.e, h.f + r.f, h.g + r.g, h.h + r.h⟩

/-- The compression `C(h, W(block))` of the core that `h` belongs to (R147). -/
def compress : HashWords → Bytes → HashWords
  | .core1 h, block => .core1 (sha1Compress h block)
  | .core256 h, block => .core256 (sha2Compress core256 h block)
  | .core512 h, block => .core512 (sha2Compress core512 h block)

/-- The state words, most significant byte first (R147). -/
def HashWords.bytes : HashWords → Bytes
  | .core1 h => [h.a, h.b, h.c, h.d, h.e].flatMap fun x => toBE x.toNat 4
  | .core256 h => [h.a, h.b, h.c, h.d, h.e, h.f, h.g, h.h].flatMap fun x => toBE x.toNat 4
  | .core512 h => [h.a, h.b, h.c, h.d, h.e, h.f, h.g, h.h].flatMap fun x => toBE x.toNat 8

/-- What `Pad` appends to a message of `len` bytes (R143). -/
def hashPadding (alg : HashAlg) (len : Nat) : Bytes :=
  let b := alg.blockBytes
  let z := (b - (len + 1 + alg.lengthBytes) % b) % b
  0x80 :: (zeros z ++ toBE (8 * len) alg.lengthBytes)

/-- The first `DIGEST_BYTES` bytes of the state words (R147). -/
def digestOf (alg : HashAlg) (h : HashWords) : Bytes := h.bytes.take alg.digestBytes

/-- `Hash(alg, M)` (R147). -/
def hash (alg : HashAlg) (m : Bytes) : Bytes :=
  digestOf alg ((chunks alg.blockBytes (m ++ hashPadding alg m.length)).foldl compress alg.iv)

/-- The absorbing loop of R151 on state words and pending bytes; `fuel` bounds the number of blocks. -/
def absorbBlocks (b : Nat) : Nat → HashWords → Bytes → HashWords × Bytes
  | 0, h, t => (h, t)
  | fuel + 1, h, t =>
    if t.length < b then (h, t) else absorbBlocks b fuel (compress h (t.take b)) (t.drop b)

/-- The body of `HASH_UPDATE` on a context (R151). -/
def HashCtx.absorb (c : HashCtx) (data : Bytes) : HashCtx :=
  let t := c.buf ++ data
  let ht := absorbBlocks c.alg.blockBytes t.length c.h t
  { c with h := ht.1, buf := ht.2, count := c.count + data.length }

/-- The state words of a context after its padding (R152): one or two blocks with `L = count`. -/
def HashCtx.finishWords (c : HashCtx) : HashWords :=
  (chunks c.alg.blockBytes (c.buf ++ hashPadding c.alg c.count)).foldl compress c.h

/-- The digest that finishing a context gives (R152). -/
def HashCtx.finishDigest (c : HashCtx) : Bytes := digestOf c.alg c.finishWords

/-- A context finalized with the digest `d` (R152, R174). -/
def HashCtx.finalize (c : HashCtx) (d : Bytes) : HashCtx :=
  { c with h := c.finishWords, digest := d, phase := .finalized, buf := [] }

/-- A fresh context (R150). Its digest storage is empty until `FINAL` fills it (R40). -/
def HashCtx.fresh (alg : HashAlg) (path : HashPath) : HashCtx where
  alg := alg
  h := alg.iv
  count := 0
  buf := []
  phase := .active
  digest := []
  path := path

/-- The bound of R155: `HASH_UPDATE` fails where `count` would reach it. -/
def countLimit : Nat := 2 ^ 61

end Sys2Proof.Machine
end

