-- ==== Sys2Proof/Machine/Hmac.lean ====
section
/-! DEFINITION. HMAC and HKDF as functions (R170, R171, R176). -/

namespace Sys2Proof.Machine

/-- `K0(alg, key)` (R170). -/
def hmacKeyBlock (alg : HashAlg) (key : Bytes) : Bytes :=
  if key.length > alg.blockBytes then hash alg key ++ zeros (alg.blockBytes - alg.digestBytes)
  else key ++ zeros (alg.blockBytes - key.length)

/-- The inner pad byte (R171). -/
def ipad : Byte := 0x36

/-- The outer pad byte (R171). -/
def opad : Byte := 0x5c

/-- `HMAC(alg, key, M)` (R171). -/
def hmac (alg : HashAlg) (key m : Bytes) : Bytes :=
  let k0 := hmacKeyBlock alg key
  hash alg (xorByte opad k0 ++ hash alg (xorByte ipad k0 ++ m))

/-- The expand loop of R176: `n` further blocks, from counter `i` and the block `t` before. -/
def hkdfExpand (prk info : Bytes) : Nat → Nat → Bytes → Bytes
  | 0, _, _ => []
  | n + 1, i, t =>
    let t' := hmac .sha256 prk (t ++ info ++ [BitVec.ofNat 8 i])
    t' ++ hkdfExpand prk info n (i + 1) t'

/-- The output keying material of R176, `len` bytes: the loop makes `ceil(len / 32)` blocks. -/
def hkdf (salt ikm info : Bytes) (len : Nat) : Bytes :=
  let prk := hmac .sha256 salt ikm
  (hkdfExpand prk info ((len + 31) / 32) 1 []).take len

end Sys2Proof.Machine
end

