-- ==== Sys2Proof/Machine/Trng.lean ====
section
/-! DEFINITION. The TRNG health-test layer (R191 to R199): the two tests, the health step with its latch, the startup test
and the delivery of words and bytes. -/

namespace Sys2Proof.Machine

/-- One sample through the run length of the repetition count test (R192). -/
def Trng.sample (t : Trng) (b : Bool) : Trng :=
  if t.runBit = some b then { t with runLen := t.runLen + 1 }
  else { t with runBit := some b, runLen := 1 }

/-- The counter that R401 bounds: the run length, up to the cutoff. DEDUCED (log 11): R192 and R44 let the run length itself go
on inside a failing word. -/
def Trng.runCounter (t : Trng) : Nat := min t.runLen Config.rctCutoff

/-- The samples of a word, oldest first: bit 0 to bit 31 (R191). -/
def samplesOf (w : Word) : List Bool := (List.range 32).map fun j => w.getLsbD j

/-- The repetition count test over samples: the record and whether a run reached the cutoff (R192). -/
def Trng.runTest (t : Trng) : List Bool → Trng × Bool
  | [] => (t, false)
  | b :: bs =>
    let t1 := t.sample b
    let rest := t1.runTest bs
    (rest.1, decide (t1.runLen ≥ Config.rctCutoff) || rest.2)

/-- `popcount(x)` (R13). -/
def popcount (w : Word) : Nat := (samplesOf w).countP id

/-- The window after a word (R193). -/
def slideWindow (window : List Word) (w : Word) : List Word :=
  let ws := window ++ [w]
  if ws.length > Config.aptWindowWords then ws.drop 1 else ws

/-- The adaptive proportion verdict on a window: only a full one can fail (R193). -/
def proportionFails (window : List Word) : Bool :=
  let pc := (window.map popcount).sum
  window.length == Config.aptWindowWords && (pc < Config.aptLow || pc > Config.aptCutoff)

/-- The error bits of a health step (R194) from the two verdicts. -/
def healthBits (rctFail aptFail : Bool) : Word := (if rctFail then errTrngRct else 0) ||| (if aptFail then errTrngApt else 0)

/-- `health(w)` (R194): whether the word is good, and the state after the step. All 32 samples are applied whatever the
verdict. -/
def State.health (s : State) (w : Word) : Bool × State :=
  let run := s.trng.runTest (samplesOf w)
  let window := slideWindow s.trng.window w
  let rctFail := run.2 || s.injected errTrngRct
  let aptFail := proportionFails window || s.injected errTrngApt
  let trng := { run.1 with window := window }
  if rctFail || aptFail then
    (false, ({ s with trng := { trng with failed := true, healthy := false } }).raiseFatal (healthBits rctFail aptFail))
  else (true, { s with trng := trng })

/-- `n` health steps on fresh words, stopping at the first bad one (R197). -/
def State.startupLoop : Nat → State → Bool × State
  | 0, s => (true, s)
  | n + 1, s =>
    let (w, s1) := s.noiseWord
    match s1.health w with
    | (false, s2) => (false, s2)
    | (true, s2) => State.startupLoop n s2

/-- `trng_startup()` (R197). -/
def State.trngStartup (s : State) : Bool × State :=
  if s.hasError || s.trng.failed then (false, s)
  else
    let cleared := { s.trng with runBit := none, runLen := 0, window := [], healthy := false }
    match State.startupLoop Config.startupWords { s with trng := cleared } with
    | (false, s1) => (false, s1)
    | (true, s1) => (true, { s1 with trng := { s1.trng with healthy := true } })

/-- `trng_word()` (R198); `none` is "bad". -/
def State.trngWord (s : State) : Option Word × State :=
  if s.trng.failed || !s.trng.healthy then (none, s)
  else
    let (w, s1) := s.noiseWord
    match s1.health w with
    | (false, s2) => (none, s2)
    | (true, s2) => (some w, s2)

/-- `n` words of `trng_word()` as bytes, in drawing order (R199). -/
def State.trngWordBytes : Nat → State → Option Bytes × State
  | 0, s => (some [], s)
  | n + 1, s =>
    match s.trngWord with
    | (none, s1) => (none, s1)
    | (some w, s1) =>
      match State.trngWordBytes n s1 with
      | (none, s2) => (none, s2)
      | (some rest, s2) => (some (wordBytes w ++ rest), s2)

/-- `trng_bytes(n)` (R199). -/
def State.trngBytes (s : State) (n : Nat) : Option Bytes × State :=
  match State.trngWordBytes ((n + 3) / 4) s with
  | (none, s1) => (none, s1)
  | (some bytes, s1) => (some (bytes.take n), s1)

end Sys2Proof.Machine
end

