-- ==== Sys2Proof/Machine/Drbg.lean ====
section
/-! DEFINITION. The HMAC-DRBG (R211, R212, R214, R216) and the splitting loop of `RAND_BYTES` (R222). -/

namespace Sys2Proof.Machine

/-- `HMAC(K, m)` of the DRBG: HMAC-SHA-256 (R42). -/
def drbgHmac (k m : Bytes) : Bytes := hmac .sha256 k m

/-- One half of `Update` with its tag byte (R211). -/
def Drbg.updateHalf (d : Drbg) (tag : Byte) (pd : Bytes) : Drbg :=
  let k := drbgHmac d.k (d.v ++ tag :: pd)
  { d with k := k, v := drbgHmac k d.v }

/-- `Update(s, pd)` (R211). -/
def Drbg.update (d : Drbg) (pd : Bytes) : Drbg :=
  let d1 := d.updateHalf 0x00 pd
  if pd.length > 0 then d1.updateHalf 0x01 pd else d1

/-- `K <- zeros(32) ; V <- rep(0x01, 32)` with the other fields that R212 sets. -/
def Drbg.start (threshold : Word) : Drbg where
  k := zeros 32
  v := rep 0x01 32
  reseedCounter := 1
  reseedThreshold := threshold
  cookie := .valid

/-- `drbg_instantiate(s, seed, threshold)` (R212). -/
def Drbg.instantiate (seed : Bytes) (threshold : Word) : Drbg := (Drbg.start threshold).update seed

/-- `drbg_reseed(s, seed)` (R214). -/
def Drbg.reseed (d : Drbg) (seed : Bytes) : Drbg := { d.update seed with reseedCounter := 1 }

/-- The state after `DRBG_EXIT` (R43, R218). -/
def Drbg.erased : Drbg where
  k := zeros 32
  v := zeros 32
  reseedCounter := 0
  reseedThreshold := 0
  cookie := .invalid

/-- `n` turns of the output loop of R216: the bytes and the last `V`. -/
def drbgBlocks (k : Bytes) : Nat → Bytes → Bytes × Bytes
  | 0, v => ([], v)
  | n + 1, v =>
    let v1 := drbgHmac k v
    let rest := drbgBlocks k n v1
    (v1 ++ rest.1, rest.2)

/-- R216 after its tests and its auto-reseed: `n` bytes of output and the instance afterwards. -/
def Drbg.produce (d : Drbg) (n : Nat) (addl : Bytes) : Bytes × Drbg :=
  let d1 := if addl.length > 0 then d.update addl else d
  let blocks := drbgBlocks d1.k ((n + 31) / 32) d1.v
  let d2 := ({ d1 with v := blocks.2 }).update addl
  (blocks.1.take n, { d2 with reseedCounter := d2.reseedCounter + 1 })

/-- Auto-reseed is due (R217). -/
def Drbg.reseedDue (d : Drbg) : Bool := d.reseedCounter.toNat > d.reseedThreshold.toNat

/-- The first three tests of R216 in their order; `none` lets the call go on. -/
def Drbg.refuses (d : Drbg) (noAutoReseed : Word) (n : Nat) : Option Result :=
  if d.cookie ≠ .valid then some .fail
  else if n > Config.drbgMaxOut then some .fail
  else if d.reseedCounter = noAutoReseed then some .reseedNeeded
  else none

/-- `drbg_generate(s, n, addl)` (R216) on slot `i`: the code, the output, and the state afterwards. -/
def State.drbgGenerate (s : State) (i : BitVec 4) (n : Nat) (addl : Bytes) : Result × Bytes × State :=
  let d := s.drbgAt i
  match d.refuses s.cfg.noAutoReseed n with
  | some code => (code, [], s)
  | none =>
    if d.reseedDue then
      match s.trngBytes s.cfg.entropyBytes with
      | (none, s1) => (.fail, [], s1)
      | (some e, s1) =>
        let out := (d.reseed e).produce n []
        (.ok, out.1, s1.setDrbg i out.2)
    else
      let out := d.produce n addl
      (.ok, out.1, s.setDrbg i out.2)

/-- The lazy instantiation of the singleton in `RAND_BYTES` (R222): whether it holds a live instance afterwards. -/
def State.ensureSingleton (s : State) : Bool × State :=
  if (s.drbgAt 0).cookie = .valid then (true, s)
  else
    match s.trngBytes s.cfg.entropyBytes with
    | (none, s1) => (false, s1)
    | (some e, s1) =>
      match s1.trngBytes s.cfg.nonceBytes with
      | (none, s2) => (false, s2)
      | (some m, s2) => (true, s2.setDrbg 0 (Drbg.instantiate (e ++ m) s.cfg.defaultThreshold))

/-- The loop of R222: `rest` bytes are still to come after `out`; `fuel` at least `rest` is enough. -/
def State.randLoop : Nat → Nat → Bytes → State → Result × Bytes × State
  | 0, _, out, s => (.ok, out, s)
  | fuel + 1, rest, out, s =>
    if rest = 0 then (.ok, out, s)
    else
      match s.drbgGenerate 0 (min Config.drbgMaxOut rest) [] with
      | (.ok, part, s1) => State.randLoop fuel (rest - min Config.drbgMaxOut rest) (out ++ part) s1
      | (code, _, s1) => (code, [], s1)

end Sys2Proof.Machine
end

