-- ==== Sys2Proof/Machine/DrbgCmds.lean ====
section
/-! DEFINITION. The meanings of the DRBG unit (R213 to R215, R218, R219, R222). -/

namespace Sys2Proof.Machine

/-- `DRBG_INIT g<i>` (R213). -/
def execDrbgInit (i : BitVec 4) (s : State) : Outcome :=
  .next (s.gated fun s =>
    match s.isDrbgSlot i, wordOperand s.in3 with
    | true, some threshold => (s.setDrbg i (Drbg.instantiate (s.in0 ++ s.in1 ++ s.in2) threshold)).done
    | _, _ => s.fail)

/-- `DRBG_RESEED g<i>` (R214). -/
def execDrbgReseed (i : BitVec 4) (s : State) : Outcome :=
  .next (s.gated fun s =>
    if s.isDrbgSlot i = true ∧ (s.drbgAt i).cookie = .valid then
      (s.setDrbg i ((s.drbgAt i).reseed (s.in0 ++ s.in1))).done
    else s.fail)

/-- `DRBG_GENERATE g<i>, #outLen` (R215). -/
def execDrbgGenerate (i : BitVec 4) (outLen : BitVec 16) (s : State) : Outcome :=
  .next (s.gated fun s =>
    if s.isDrbgSlot i then
      match s.drbgGenerate i outLen.toNat s.in0 with
      | (code, out, s1) => s1.ret code out []
    else s.fail)

/-- `DRBG_EXIT g<i>` (R218). Not gated. -/
def execDrbgExit (i : BitVec 4) (s : State) : Outcome :=
  .next (if s.isDrbgSlot i then (s.setDrbg i Drbg.erased).done else s.fail)

/-- `DRBG_INIT_RFC6979 g<i>` (R219). -/
def execDrbgInitRfc6979 (i : BitVec 4) (s : State) : Outcome :=
  .next (s.gated fun s =>
    if s.isDrbgSlot i = true ∧ s.in0.length = 32 ∧ s.in1.length = 32 then
      (s.setDrbg i (Drbg.instantiate (s.in0 ++ s.in1) s.cfg.noAutoReseed)).done
    else s.fail)

/-- `RAND_BYTES #n` (R222). -/
def execRandBytes (n : BitVec 16) (s : State) : Outcome :=
  .next (s.gated fun s =>
    if n.toNat > s.cfg.maxBuf then s.fail
    else
      match s.ensureSingleton with
      | (false, s1) => s1.fail
      | (true, s1) =>
        match State.randLoop n.toNat n.toNat [] s1 with
        | (code, out, s2) => s2.ret code out [])

end Sys2Proof.Machine
end

