-- ==== Sys2Proof/Machine/Bignum.lean ====
section
/-! DEFINITION. Modular exponentiation and inverse on naturals (R13, R281). How the engine computes them is not visible
(R281); the recursions here run on a bound that is large enough by itself. -/

namespace Sys2Proof.Machine

/-- `x^k mod N` by squaring; `fuel` at least `k` is enough. -/
def powModFuel (n : Nat) : Nat → Nat → Nat → Nat
  | 0, _, _ => 1 % n
  | fuel + 1, x, k =>
    if k = 0 then 1 % n
    else
      let h := powModFuel n fuel (x * x % n) (k / 2)
      if k % 2 = 1 then x * h % n else h

/-- `modexp(x, k, N)` (R281). -/
def modexp (x k n : Nat) : Nat := powModFuel n k x k

/-- Euclid's algorithm on `(r0, r1)` with the coefficients `(t0, t1)` modulo `m`: the coefficient where the remainder 0 is
reached, and the last remainder before it. -/
def euclidFuel (m : Nat) : Nat → Nat → Nat → Nat → Nat → Nat × Nat
  | 0, r0, _, t0, _ => (t0, r0)
  | fuel + 1, r0, r1, t0, t1 =>
    if r1 = 0 then (t0, r0)
    else euclidFuel m fuel r1 (r0 % r1) t1 ((t0 + (m - r0 / r1 * t1 % m)) % m)

/-- `inv(a, m)` (R13) for `gcd(a, m) = 1`. -/
def invMod (a m : Nat) : Nat := (euclidFuel m (a % m + 1) m (a % m) 0 1).1

/-- The secret `v` as the masked accelerator paths use it (R244, R282): loaded as `v xor mask`, the mask removed
afterwards. -/
def unmask (v mask : Nat) : Nat := (v ^^^ mask) ^^^ mask

end Sys2Proof.Machine
end

