-- ==== Sys2Proof/Machine/Curve.lean ====
section
/-! DEFINITION. The curve P-256 and ECDSA as functions on values (R240 to R244, R253, R255). -/

namespace Sys2Proof.Machine

/-- The field prime `p` (R240). -/
def p256P : Nat := 0xffffffff00000001000000000000000000000000ffffffffffffffffffffffff

/-- The coefficient `b` (R240). -/
def p256B : Nat := 0x5ac635d8aa3a93e7b3ebbd55769886bc651d06b0cc53b0f63bce3c3e27d2604b

/-- The order `n` (R240). -/
def p256N : Nat := 0xffffffff00000000ffffffffffffffffbce6faada7179e84f3b9cac2fc632551

/-- A point: the point at infinity `O` or a pair (R241). -/
inductive Point where
  | infinity
  | affine (x y : Nat)
  deriving DecidableEq, Repr

/-- The generator `G` (R240). -/
def p256G : Point :=
  .affine 0x6b17d1f2e12c4247f8bce6e563a440f277037d812deb33a0f4a13945d898c296
    0x4fe342e2fe1a7f9b8ee7eb4a7c0f9e162bce33576b315ececbb6406837bf51f5

/-- `on_curve(x, y)` (R241): the equation with `3*x` moved to the left side. -/
def onCurve (x y : Nat) : Bool :=
  x < p256P && y < p256P && (y * y + 3 * x) % p256P == (x * x * x + p256B) % p256P

/-- `a - b mod p`. -/
def subP (a b : Nat) : Nat := (a + (p256P - b % p256P)) % p256P

/-- `a / b mod p` (R242). -/
def divP (a b : Nat) : Nat := a * invMod b p256P % p256P

/-- The third point of the chord or tangent with slope `l` through `(x1, y1)` and a point with abscissa `x2` (R242). -/
def thirdPoint (l x1 y1 x2 : Nat) : Point :=
  let x3 := subP (l * l) (x1 + x2)
  .affine x3 (subP (l * subP x1 x3) y1)

/-- The group law (R242). -/
def Point.add : Point → Point → Point
  | .infinity, q => q
  | .affine x1 y1, .infinity => .affine x1 y1
  | .affine x1 y1, .affine x2 y2 =>
    if x1 = x2 ∧ (y1 + y2) % p256P = 0 then .infinity
    else if x1 = x2 ∧ y1 = y2 then thirdPoint (divP (subP (3 * x1 * x1) 3) (2 * y1)) x1 y1 x2
    else thirdPoint (divP (subP y2 y1) (subP x2 x1)) x1 y1 x2

/-- `k·P` by doubling; `fuel` at least `k` is enough. -/
def pointMulFuel : Nat → Nat → Point → Point
  | 0, _, _ => .infinity
  | fuel + 1, k, q =>
    if k = 0 then .infinity
    else
      let h := pointMulFuel fuel (k / 2) (q.add q)
      if k % 2 = 1 then q.add h else h

/-- `k·P` (R242). DEDUCED (log 14): by doubling, equal to `P` added to itself `k` times by the group law. -/
def pointMul (k : Nat) (q : Point) : Point := pointMulFuel k k q

/-- `k·P` with the scalar masked (R244). -/
def blindedPointMul (mask k : Nat) (q : Point) : Point := pointMul (unmask k mask) q

/-- `toBE(x, 32) ‖ toBE(y, 32)` (R241). `O` has no encoding (R241): no bytes. -/
def Point.bytes : Point → Bytes
  | .infinity => []
  | .affine x y => toBE x 32 ++ toBE y 32

/-- `sign_raw(k, d, e)` of R253 with the masks of R244 for `k`, `d` and `inv(k, n)`; `none` is `RETRY`. -/
def signRawMasked (m1 m2 m3 k d e : Nat) : Option (Nat × Nat) :=
  match blindedPointMul m1 k p256G with
  | .infinity => none
  | .affine x1 _ =>
    let r := x1 % p256N
    let s := unmask (invMod k p256N) m3 * (e + r * unmask d m2) % p256N
    if r = 0 ∨ s = 0 then none else some (r, s)

/-- `sign_raw(k, d, e)` as a value (R253): the masks change nothing (R244). -/
def signRaw (k d e : Nat) : Option (Nat × Nat) := signRawMasked 0 0 0 k d e

/-- The computation of R255 on values. -/
def ecdsaVerifyValue (qx qy e r s : Nat) : Bool :=
  if r = 0 ∨ p256N ≤ r ∨ s = 0 ∨ p256N ≤ s then false
  else if !onCurve qx qy then false
  else
    let w := invMod s p256N
    match (pointMul (e * w % p256N) p256G).add (pointMul (r * w % p256N) (.affine qx qy)) with
    | .infinity => false
    | .affine x _ => equals (toBE (x % p256N) 32) (toBE r 32) 32

/-- A signature `r ‖ s` (R86). -/
def signatureBytes (rs : Nat × Nat) : Bytes := toBE rs.1 32 ++ toBE rs.2 32

end Sys2Proof.Machine
end

