-- ==== Sys2Proof/Machine/Rsa.lean ====
section
/-! DEFINITION. RSA: the key predicate (R280, R300), the blinded exponentiation as a function of its draws (R282), the
paddings (R286 to R294) and the verification as a function (R299). -/

namespace Sys2Proof.Machine

/-- The sizes of R280 and R300: a multiple of 32 bytes from 32 to `maxBytes`. -/
def modulusSizeOk (maxBytes nb : Nat) : Bool := nb % 32 == 0 && 32 ≤ nb && nb ≤ maxBytes

/-- `key_ok(maxbytes)` of R280 without its clause on the private exponent, for a modulus `n` of `nb` bytes and the public
exponent port; the answer is `e`. -/
def keyExponent (maxBytes nb n : Nat) (ePort : Bytes) : Option Nat :=
  match wordOperand ePort with
  | none => none
  | some e => if modulusSizeOk maxBytes nb && e.getLsbD 0 && n % 2 == 1 && 3 ≤ n then some e.toNat else none

/-- The size limit of `RSA_VERIFY`, `MODEXP_PUB` and `MODEXP_BLINDED` (R300). -/
def rsaMaxPublicBytes : Nat := 512

/-- The size limit of `RSA_SIGN`, `RSA_ENCRYPT` and `RSA_DECRYPT` (R300). -/
def rsaMaxPrivateBytes : Nat := 256

/-- The blinder `r` of R282 can be removed again. -/
def blinderInvertible (r n : Nat) : Bool := Nat.gcd (r % n) n == 1

/-- The value of `modexp_blinded(x, d, N, e)` for an invertible blinder `r` and the exponent-path mask `mk` (R282). -/
def modexpBlindedValue (r mk x d n e : Nat) : Nat :=
  let xb := x * modexp (r % n) e n % n
  let yb := modexp xb (unmask d mk) n
  yb * invMod (r % n) n % n

/-- The blocks of MGF1 from counter `c` on (R286). -/
def mgf1Blocks (h : HashAlg) (seed : Bytes) : Nat → Nat → Bytes
  | 0, _ => []
  | n + 1, c => hash h (seed ++ toBE c 4) ++ mgf1Blocks h seed n (c + 1)

/-- `MGF1(H, seed, len)` (R286). -/
def mgf1 (h : HashAlg) (seed : Bytes) (len : Nat) : Bytes :=
  (mgf1Blocks h seed ((len + h.digestBytes - 1) / h.digestBytes) 0).take len

/-- `DER(H)` (R287); SHA-224 has none. -/
def derPrefix : HashAlg → Option Bytes
  | .sha1 => some (toBE 0x3021300906052b0e03021a05000414 15)
  | .sha224 => none
  | .sha256 => some (toBE 0x3031300d060960864801650304020105000420 19)
  | .sha384 => some (toBE 0x3041300d060960864801650304020205000430 19)
  | .sha512 => some (toBE 0x3051300d060960864801650304020305000440 19)

/-- `EM1(H, digest, nb)` (R288). -/
def emsaPkcs1 (h : HashAlg) (digest : Bytes) (nb : Nat) : Option Bytes :=
  match derPrefix h with
  | none => none
  | some der =>
    let t := der ++ digest
    if nb ≥ t.length + 11 then some (0x00 :: 0x01 :: (rep 0xff (nb - t.length - 3) ++ 0x00 :: t)) else none

/-- `EM2(M, nb)` with the filler `ps` (R289). -/
def emePkcs1 (m ps : Bytes) : Bytes := 0x00 :: 0x02 :: (ps ++ 0x00 :: m)

/-- The bytes after the first 0x00, with the number of bytes before it (R289). -/
def splitAtZero : Bytes → Option (Nat × Bytes)
  | [] => none
  | b :: bs => if b = 0 then some (0, bs) else (splitAtZero bs).map fun x => (x.1 + 1, x.2)

/-- The decoding of R289: at least 8 filler bytes, so that the index `i` of the separator is not below 10. -/
def emePkcs1Decode : Bytes → Option Bytes
  | b0 :: b1 :: rest =>
    if b0 = 0x00 ∧ b1 = 0x02 then
      match splitAtZero rest with
      | none => none
      | some (i, m) => if i + 2 < 10 then none else some m
    else none
  | _ => none

/-- The message fits OAEP (R290). -/
def oaepFits (h : HashAlg) (mLen nb : Nat) : Bool := 2 * h.digestBytes + 2 ≤ nb && mLen ≤ nb - 2 * h.digestBytes - 2

/-- OAEP encode with the seed (R290). -/
def oaepEncode (h : HashAlg) (label m seed : Bytes) (nb : Nat) : Bytes :=
  let hLen := h.digestBytes
  let db := hash h label ++ zeros (nb - m.length - 2 * hLen - 2) ++ 0x01 :: m
  let maskedDb := xorBytes db (mgf1 h seed (nb - hLen - 1))
  let maskedSeed := xorBytes seed (mgf1 h maskedDb hLen)
  0x00 :: (maskedSeed ++ maskedDb)

/-- OAEP decode (R291). -/
def oaepDecode (h : HashAlg) (label em : Bytes) : Option Bytes :=
  let hLen := h.digestBytes
  let nb := em.length
  if nb < 2 * hLen + 2 then none
  else
    let maskedSeed := slice em 1 (1 + hLen)
    let maskedDb := em.drop (1 + hLen)
    let seed := xorBytes maskedSeed (mgf1 h maskedDb hLen)
    let db := xorBytes maskedDb (mgf1 h seed (nb - hLen - 1))
    if em.headD 0 == 0 && equals (db.take hLen) (hash h label) hLen then afterOneMarker (db.drop hLen) else none

/-- `emBits` for the modulus `n`: its bit length minus 1 (R292). -/
def pssBits (n : Nat) : Nat := Nat.log2 n

/-- `emLen` for the modulus `n` (R292). -/
def pssLen (n : Nat) : Nat := (pssBits n + 7) / 8

/-- The first byte with its leftmost `8*emLen - emBits` bits cleared (R292). -/
def pssClear (n : Nat) : Bytes → Bytes
  | [] => []
  | b :: bs => (b &&& ((0xff : Byte) >>> (8 * pssLen n - pssBits n))) :: bs

/-- The salt length of R292. -/
def pssSaltLen (h : HashAlg) (n : Nat) : Nat := min h.digestBytes (pssLen n - h.digestBytes - 2)

/-- The modulus is long enough for PSS (R292). -/
def pssFits (h : HashAlg) (n : Nat) : Bool := h.digestBytes + 2 ≤ pssLen n

/-- PSS encode with the salt (R292). -/
def pssEncode (h : HashAlg) (mHash salt : Bytes) (n nb : Nat) : Bytes :=
  let hLen := h.digestBytes
  let emLen := pssLen n
  let hh := hash h (zeros 8 ++ mHash ++ salt)
  let db := zeros (emLen - salt.length - hLen - 2) ++ 0x01 :: salt
  let maskedDb := pssClear n (xorBytes db (mgf1 h hh (emLen - hLen - 1)))
  zeros (nb - emLen) ++ maskedDb ++ hh ++ [0xbc]

/-- PSS verify (R293) of an encoded block of `nb` bytes. -/
def pssVerify (h : HashAlg) (mHash em : Bytes) (n : Nat) : Bool :=
  let hLen := h.digestBytes
  let emLen := pssLen n
  let lead := em.take (em.length - emLen)
  let em := em.drop (em.length - emLen)
  let maskedDb := em.take (emLen - hLen - 1)
  let hh := slice em (emLen - hLen - 1) (emLen - 1)
  if !lead.all (· == 0) || emLen < hLen + 2 || em.getLastD 0 != 0xbc || pssClear n maskedDb != maskedDb then false
  else
    match afterOneMarker (pssClear n (xorBytes maskedDb (mgf1 h hh (emLen - hLen - 1)))) with
    | none => false
    | some salt => equals hh (hash h (zeros 8 ++ mHash ++ salt)) hLen

/-- The length that the digest operand of `RSA_SIGN` and `RSA_VERIFY` must have (R298, R299). -/
def signatureOperandLen (pad : Padding) (nb : Nat) : Nat :=
  match pad with
  | .pkcs1Hash h => h.digestBytes
  | .pss h => h.digestBytes
  | _ => nb

/-- The check of a recovered block against the digest operand (R299). -/
def blockVerifies (pad : Padding) (digest em : Bytes) (n nb : Nat) : Bool :=
  match pad with
  | .null => equals em digest nb
  | .pkcs1Hash h =>
    match emsaPkcs1 h digest nb with
    | none => false
    | some expected => equals em expected nb
  | .pss h => pssVerify h digest em n
  | _ => false

/-- The checks and the computation of R299 after the gate and the selectors: operands as the ports `IN0..IN3` carry them. -/
def rsaVerifyValue (pad : Padding) (digest sig modulus ePort : Bytes) : Bool :=
  let nb := modulus.length
  let n := be modulus
  match keyExponent rsaMaxPublicBytes nb n ePort with
  | none => false
  | some e =>
    if sig.length ≠ nb ∨ digest.length ≠ signatureOperandLen pad nb ∨ n ≤ be sig then false
    else blockVerifies pad digest (toBE (modexp (be sig) e n) nb) n nb

/-- The block of `RSA_DECRYPT` unpadded (R297). -/
def unpadCipher (pad : Padding) (label em : Bytes) : Option Bytes :=
  match pad with
  | .null => some em
  | .pkcs1 => emePkcs1Decode em
  | .oaep h => oaepDecode h label em
  | _ => none

end Sys2Proof.Machine
end

