-- ==== Sys2Proof/Machine/Kat.lean ====
section
/-! DEFINITION. The known-answer tests (R362, R363, R369 to R376): each is a function of the vectors and the injection
register alone. -/

namespace Sys2Proof.Machine

/-- `ERR(id)` (R362). -/
def KatId.errorBit : KatId → Word
  | .sha256 => errSha256
  | .hmacSha256 => errHmacSha256
  | .ecdsa => errEcdsa
  | .aes256 => errAes256
  | .hmacDrbg => errHmacDrbg
  | .rsa2048 => errRsa2048

/-- The KATs that call the AES, bignum or ECC accelerator (R84). -/
def KatId.usesEngine : KatId → Bool
  | .sha256 => false
  | .hmacSha256 => false
  | .ecdsa => true
  | .aes256 => true
  | .hmacDrbg => false
  | .rsa2048 => true

/-- A KAT comparison (R369): equal lengths and `equals` of R350. -/
def sameBytes (a b : Bytes) : Bool := a.length == b.length && equals a b b.length

/-- `KAT_SHA256` (R370). -/
def katSha256 (kv : KatVectors) : Bool := sameBytes (hash .sha256 kv.sha256Msg) kv.sha256Digest

/-- `KAT_HMAC_SHA256` (R371). -/
def katHmacSha256 (kv : KatVectors) : Bool := sameBytes (hmac .sha256 kv.hmacKey kv.hmacMsg) kv.hmacTag

/-- `KAT_ECDSA` (R372): sign, with `r` and `s` compared as the 32 bytes that a port carries (R86, R369), accept, and reject
with the last byte of `s` changed by 0x01. -/
def katEcdsa (kv : KatVectors) : Bool :=
  let e := be kv.ecdsaDigest
  match signRaw kv.ecdsaK kv.ecdsaD e with
  | none => false
  | some (r, s) =>
    sameBytes (toBE r 32) kv.ecdsaR && sameBytes (toBE s 32) kv.ecdsaS &&
      ecdsaVerifyValue kv.ecdsaQx kv.ecdsaQy e r s &&
      !ecdsaVerifyValue kv.ecdsaQx kv.ecdsaQy e r (s ^^^ 1)

/-- `KAT_AES256` (R373). -/
def katAes256 (kv : KatVectors) : Bool :=
  kv.aesKey.length == 32 && kv.aesPt.length == 16 &&
    sameBytes (aesCbcEnc kv.aesKey (zeros 16) kv.aesPt).1 kv.aesCt &&
    sameBytes (aesCbcDec kv.aesKey (zeros 16) kv.aesCt).1 kv.aesPt

/-- `KAT_HMAC_DRBG` (R374) on a scratch instance with the sentinel threshold; nothing is drawn (R369). -/
def katHmacDrbg (kv : KatVectors) (noAutoReseed : Word) : Bool :=
  let d := Drbg.instantiate (kv.drbgEntropy ++ kv.drbgNonce ++ kv.drbgPerso) noAutoReseed
  let d := d.reseed (kv.drbgReseedEntropy ++ kv.drbgReseedAddl)
  match d.refuses noAutoReseed kv.drbgOut.length with
  | some _ => false
  | none => !d.reseedDue && sameBytes (d.produce kv.drbgOut.length kv.drbgGenAddl).1 kv.drbgOut

/-- `KAT_RSA2048` (R375). -/
def katRsa2048 (kv : KatVectors) : Bool :=
  kv.rsaN.length == 256 && rsaVerifyValue (.pkcs1Hash .sha256) kv.rsaDigest kv.rsaSig kv.rsaN (wordBytes kv.rsaE)

/-- The computation of `kat(id)` without injection (R369). -/
def katComputes (cfg : Config) : KatId → Bool
  | .sha256 => katSha256 cfg.kat
  | .hmacSha256 => katHmacSha256 cfg.kat
  | .ecdsa => katEcdsa cfg.kat
  | .aes256 => katAes256 cfg.kat
  | .hmacDrbg => katHmacDrbg cfg.kat cfg.noAutoReseed
  | .rsa2048 => katRsa2048 cfg.kat

/-- `kat(id)` is "good": injection is applied first (R363, R369). -/
def State.katGood (s : State) (id : KatId) : Bool := !s.injected id.errorBit && katComputes s.cfg id

/-- The battery in its order (R362). -/
def battery (cfg : Config) : List KatId :=
  [.sha256, .hmacSha256, .ecdsa, .aes256, .hmacDrbg] ++ (if cfg.katRsaEnabled then [.rsa2048] else [])

/-- One KAT of the battery: a failure raises its error bit (R360, R394); those that use the accelerator take the lock. -/
def State.katStep (s : State) (id : KatId) : State :=
  let run := fun s : State => if s.katGood id then s else s.raiseFatal id.errorBit
  if id.usesEngine then s.withEngine run else run s

end Sys2Proof.Machine
end

