-- ==== Sys2Proof/Machine/FipsCmds.lean ====
section
/-! DEFINITION. The meanings of the FIPS unit (R360, R364 to R368). None is gated (R392). -/

namespace Sys2Proof.Machine

/-- The battery of R360: every KAT runs, failures only add error bits (R362). -/
def State.runBattery (s : State) : State := (battery s.cfg).foldl State.katStep s

/-- The two-bit OR at the end of a `FIPS_POWER_ON` that passes (R360, R394). -/
def State.openGate (s : State) : State :=
  { s with fipsStatus := s.fipsStatus ||| powerUpTestDone ||| modeActive, pwrupDonePersist := true }

/-- `FIPS_POWER_ON` (R360). -/
def execFipsPowerOn (s : State) : Outcome :=
  .next (
    if s.hasError then s.fail
    else if s.testsDone then s.done
    else
      match s.trngStartup with
      | (false, s1) => s1.fail
      | (true, s1) =>
        let s2 := if s1.pwrupDonePersist then s1 else s1.runBattery
        if s2.hasError then s2.fail else s2.openGate.done)

/-- `FIPS_STATUS` (R364). -/
def execFipsStatus (s : State) : Outcome := .next (s.answer (wordBytes s.fipsStatus))

/-- `FIPS_ALLOWED` (R365). -/
def execFipsAllowed (s : State) : Outcome := .next (s.verdict s.cryptoAllowed)

/-- `FIPS_THROW_ERR #mask` (R366); the TRNG latch follows the bits, as R44 says. -/
def execFipsThrowErr (mask : BitVec 16) (s : State) : Outcome :=
  .next (if mask = 0 then s.fail else ((s.latchTrng (mask.setWidth 32)).raiseFatal (mask.setWidth 32)).done)

/-- `FIPS_KAT.kat` (R367). -/
def execFipsKat (kat : BitVec 4) (s : State) : Outcome :=
  .next (match katOfSel kat with
    | none => s.fail
    | some id =>
      if id = .rsa2048 ∧ s.cfg.katRsaEnabled = false then s.fail
      else (s.katStep id).verdict (s.katGood id))

/-- `FIPS_INJECT #mask` (R368). -/
def execFipsInject (mask : BitVec 16) (s : State) : Outcome :=
  .next ({ s with fipsInject := s.fipsInject ||| mask }.done)

end Sys2Proof.Machine
end

