-- ==== Sys2Proof/Machine/HashCmds.lean ====
section
/-! DEFINITION. The meanings of the HASH unit (R150 to R154), and the grab of the hash hardware (R85) that `HMAC_INIT`
shares. -/

namespace Sys2Proof.Machine

/-- The path choice of R150 and R172 for slot `i`: the path and the new `SHA_HW_OWNER`; `none` where `#hw` finds the hardware
taken. A re-init of the owning slot releases its own grab first. -/
def State.grabPath (s : State) (i : BitVec 4) (sel : PathSel) : Option (HashPath × Option (BitVec 4)) :=
  let owner := if s.shaHwOwner = some i then none else s.shaHwOwner
  match sel with
  | .auto => if owner = none then some (.hw, some i) else some (.sw, owner)
  | .sw => some (.sw, owner)
  | .hw => if owner = none then some (.hw, some i) else none

/-- The frame that `HASH_INIT` and `HMAC_INIT` share (R150, R172): the checks in their order, then the slot gets what
`make` builds. A live slot is overwritten whole, its `okey` with it. -/
def State.initContext (s : State) (alg i : BitVec 4) (path : BitVec 2) (make : HashAlg → HashPath → CtxSlot) : State :=
  match pathOfBits path with
  | none => s.fail
  | some sel =>
    s.gated fun s =>
      match s.isCtxSlot i, hashOfTag alg with
      | true, some a =>
        match s.grabPath i sel with
        | none => s.fail
        | some (p, owner) => ({ s with shaHwOwner := owner }.setCtx i (make a p)).done
      | _, _ => s.fail

/-- The checks of `HASH_UPDATE` and `HMAC_UPDATE` on a context (R151, R173) with the bound of R155. -/
def HashCtx.canAbsorb (c : HashCtx) (data : Bytes) : Bool :=
  c.phase == .active && c.count + data.length < countLimit

/-- `FINAL` on the hardware path releases the hardware (R152, R174). -/
def State.releaseAfter (s : State) (path : HashPath) : State :=
  if path = .hw then { s with shaHwOwner := none } else s

/-- `HASH_INIT.alg c<i>, #path` (R150). -/
def execHashInit (alg i : BitVec 4) (path : BitVec 2) (s : State) : Outcome :=
  .next (s.initContext alg i path fun a p => .hash (HashCtx.fresh a p))

/-- `HASH_UPDATE c<i>` (R151). -/
def execHashUpdate (i : BitVec 4) (s : State) : Outcome :=
  .next (s.gated fun s =>
    match s.isCtxSlot i, s.ctxAt i with
    | true, .hash c => if c.canAbsorb s.in0 then (s.setCtx i (.hash (c.absorb s.in0))).done else s.fail
    | _, _ => s.fail)

/-- `HASH_FINAL c<i>` (R152). -/
def execHashFinal (i : BitVec 4) (s : State) : Outcome :=
  .next (s.gated fun s =>
    match s.isCtxSlot i, s.ctxAt i with
    | true, .hash c =>
      match c.phase with
      | .active => ((s.setCtx i (.hash (c.finalize c.finishDigest))).releaseAfter c.path).answer c.finishDigest
      | .finalized => s.answer c.digest
    | _, _ => s.fail)

/-- `HASH_SIZE.alg` (R153). Not gated. -/
def execHashSize (alg : BitVec 4) (s : State) : Outcome :=
  .next (s.answer (toLE ((hashOfTag alg).elim 0 HashAlg.digestBytes) 4))

/-- `HASH_BLOCK_SIZE.alg` (R154). Not gated. -/
def execHashBlockSize (alg : BitVec 4) (s : State) : Outcome :=
  .next (s.answer (toLE ((hashOfTag alg).elim 0 HashAlg.blockBytes) 4))

end Sys2Proof.Machine
end

