-- ==== Sys2Proof/Machine/HmacCmds.lean ====
section
/-! DEFINITION. The meanings of the HMAC unit (R172 to R174, R176). -/

namespace Sys2Proof.Machine

/-- The context after `HMAC_INIT` (R172): the inner-padded key block is absorbed, the key block is kept. -/
def hmacFresh (key : Bytes) (alg : HashAlg) (path : HashPath) : CtxSlot :=
  let k0 := hmacKeyBlock alg key
  .hmac { HashCtx.fresh alg path with h := compress alg.iv (xorByte ipad k0), count := alg.blockBytes } k0

/-- The tag of an active HmacContext (R174): the outer hash over the inner digest. -/
def HashCtx.finishTag (c : HashCtx) (okey : Bytes) : Bytes := hash c.alg (xorByte opad okey ++ c.finishDigest)

/-- The key block of slot `i` cleared, where it holds one (R41, R174). -/
def State.clearKey (s : State) (i : BitVec 4) : State :=
  match s.isCtxSlot i, s.ctxAt i with
  | true, .hmac c _ => s.setCtx i (.hmac c (zeros c.alg.blockBytes))
  | _, _ => s

/-- `HMAC_INIT.alg c<i>, #path` (R172). -/
def execHmacInit (alg i : BitVec 4) (path : BitVec 2) (s : State) : Outcome :=
  .next (s.initContext alg i path (hmacFresh s.in0))

/-- `HMAC_UPDATE c<i>` (R173). -/
def execHmacUpdate (i : BitVec 4) (s : State) : Outcome :=
  .next (s.gated fun s =>
    match s.isCtxSlot i, s.ctxAt i with
    | true, .hmac c okey =>
      if c.canAbsorb s.in0 then (s.setCtx i (.hmac (c.absorb s.in0) okey)).done else s.fail
    | _, _ => s.fail)

/-- `HMAC_FINAL c<i>` (R174). With the gate closed it fails and clears the key block all the same. -/
def execHmacFinal (i : BitVec 4) (s : State) : Outcome :=
  .next (if s.cryptoAllowed then
    match s.isCtxSlot i, s.ctxAt i with
    | true, .hmac c okey =>
      match c.phase with
      | .active =>
        let tag := c.finishTag okey
        ((s.setCtx i (.hmac (c.finalize tag) (zeros c.alg.blockBytes))).releaseAfter c.path).answer tag
      | .finalized => s.answer c.digest
    | _, _ => s.fail
  else (s.clearKey i).fail)

/-- `HKDF.alg #len` (R176). -/
def execHkdf (alg : BitVec 4) (len : BitVec 16) (s : State) : Outcome :=
  .next (s.gated fun s =>
    if alg ≠ 3 ∨ len.toNat > 255 * 32 ∨ len.toNat > s.cfg.maxBuf then s.fail
    else s.answer (hkdf s.in0 s.in1 s.in2 len.toNat))

end Sys2Proof.Machine
end

