-- ==== Sys2Proof/Machine/P256Cmds.lean ====
section
/-! DEFINITION. The meanings of the P256 unit (R250 to R256). All are gated and hold the engine lock (R84). -/

namespace Sys2Proof.Machine

/-- The frame of the six P256 commands: the engine lock around the gate check. -/
def State.p256Command (s : State) (body : State → State) : State := s.withEngine fun s => s.gated body

/-- A scalar in `[1, n-1]` (R251 to R254). -/
def scalarOk (k : Nat) : Bool := k != 0 && k < p256N

/-- `k·P` for a secret `k`: the blinding value is drawn first (R244). -/
def State.blindMul (s : State) (k : Nat) (q : Point) : Point × State :=
  let (m, s1) := s.draw 256
  (blindedPointMul m k q, s1)

/-- `sign_raw(k, d, e)` with the three blinding values it draws (R244, R253); `none` is `RETRY`. -/
def State.signRawBlinded (s : State) (k d e : Nat) : Option (Nat × Nat) × State :=
  let (m1, s1) := s.draw 256
  let (m2, s2) := s1.draw 256
  let (m3, s3) := s2.draw 256
  (signRawMasked m1 m2 m3 k d e, s3)

/-- The tries of the pairwise consistency test (R256) for the key `d` and the point `q`. -/
def State.pairwiseTries (d : Nat) (q : Point) : Nat → State → Bool × State
  | 0, s => (false, s)
  | t + 1, s =>
    let (e, s1) := s.draw 256
    let (c, s2) := s1.draw 256
    if p256N - 1 ≤ c then State.pairwiseTries d q t s2
    else
      match s2.signRawBlinded (c + 1) d e with
      | (none, s3) => State.pairwiseTries d q t s3
      | (some (r, sg), s3) =>
        match q with
        | .infinity => (false, s3)
        | .affine x y => (ecdsaVerifyValue x y e r sg, s3)

/-- `pairwise(d, x, y)` (R256): "good" or not. -/
def State.pairwise (s : State) (d : Nat) (q : Point) : Bool × State :=
  if s.injected errEcdsa then (false, s) else State.pairwiseTries d q s.cfg.p256MaxTries s

/-- `P256_KEY_FROM_BYTES` (R250). -/
def execP256KeyFromBytes (s : State) : Outcome :=
  .next (s.p256Command fun s =>
    if s.in0.length ≠ 32 then s.fail
    else if p256N - 1 ≤ be s.in0 then s.ret .retry [] []
    else
      let d := be s.in0 + 1
      let (q, s1) := s.blindMul d p256G
      match s1.pairwise d q with
      | (false, s2) => (s2.raiseFatal errEcdsa).fail
      | (true, s2) => s2.ret .ok (toBE d 32) q.bytes)

/-- `P256_BASE_MUL` (R251). -/
def execP256BaseMul (s : State) : Outcome :=
  .next (s.p256Command fun s =>
    if s.in0.length ≠ 32 ∨ scalarOk (be s.in0) = false then s.fail
    else
      let (q, s1) := s.blindMul (be s.in0) p256G
      s1.answer q.bytes)

/-- `P256_POINT_MUL` (R252). -/
def execP256PointMul (s : State) : Outcome :=
  .next (s.p256Command fun s =>
    if s.in0.length ≠ 32 ∨ s.in1.length ≠ 64 ∨ scalarOk (be s.in0) = false then s.fail
    else
      let x := be (slice s.in1 0 32)
      let y := be (slice s.in1 32 64)
      if onCurve x y then
        let (q, s1) := s.blindMul (be s.in0) (.affine x y)
        s1.answer q.bytes
      else s.fail)

/-- `ECDSA_SIGN_RAW` (R253). -/
def execEcdsaSignRaw (s : State) : Outcome :=
  .next (s.p256Command fun s =>
    if s.in0.length ≠ 32 ∨ s.in1.length ≠ 32 ∨ s.in2.length ≠ 32 ∨
        scalarOk (be s.in0) = false ∨ scalarOk (be s.in1) = false then s.fail
    else
      match s.signRawBlinded (be s.in0) (be s.in1) (be s.in2) with
      | (none, s1) => s1.ret .retry [] []
      | (some rs, s1) => s1.answer (signatureBytes rs))

/-- The tries of `ECDSA_SIGN` (R254): each advances the DRBG by one generate call. -/
def State.signTries (i : BitVec 4) (d e : Nat) : Nat → State → State
  | 0, s => s.fail
  | t + 1, s =>
    match s.drbgGenerate i 32 [] with
    | (.ok, bytes, s1) =>
      if p256N - 1 ≤ be bytes then State.signTries i d e t s1
      else
        match s1.signRawBlinded (be bytes + 1) d e with
        | (none, s2) => State.signTries i d e t s2
        | (some rs, s2) => s2.answer (signatureBytes rs)
    | (code, _, s1) => s1.ret code [] []

/-- `ECDSA_SIGN g<i>` (R254). -/
def execEcdsaSign (i : BitVec 4) (s : State) : Outcome :=
  .next (s.p256Command fun s =>
    if s.isDrbgSlot i = false ∨ s.in1.length ≠ 32 ∨ s.in2.length ≠ 32 ∨ scalarOk (be s.in1) = false then s.fail
    else State.signTries i (be s.in1) (be s.in2) s.cfg.p256MaxTries s)

/-- `ECDSA_VERIFY` (R255). -/
def execEcdsaVerify (s : State) : Outcome :=
  .next (s.p256Command fun s =>
    if s.in0.length ≠ 64 ∨ s.in1.length ≠ 32 ∨ s.in2.length ≠ 64 then s.fail
    else
      s.verdict (ecdsaVerifyValue (be (slice s.in0 0 32)) (be (slice s.in0 32 64)) (be s.in1)
        (be (slice s.in2 0 32)) (be (slice s.in2 32 64))))

end Sys2Proof.Machine
end

