-- ==== Sys2Proof/Machine/RsaCmds.lean ====
section
/-! DEFINITION. The meanings of the RSA unit (R282, R284, R296 to R299). All are gated and hold the engine lock (R84). -/

namespace Sys2Proof.Machine

/-- The frame of the six RSA commands: the engine lock around the gate check. -/
def State.rsaCommand (s : State) (body : State → State) : State := s.withEngine fun s => s.gated body

/-- `modexp_blinded(x, d, N, e)` with its two draws (R282); `none` is its `FAIL`. -/
def State.modexpBlinded (s : State) (x d n e : Nat) : Option Nat × State :=
  let (r, s1) := s.drawNonzero 64
  if blinderInvertible r n then
    let (mask, s2) := s1.draw 32
    (some (modexpBlindedValue r mask x d n e), s2)
  else (none, s1)

/-- `MODEXP_BLINDED` (R282). -/
def execModexpBlinded (s : State) : Outcome :=
  .next (s.rsaCommand fun s =>
    let nb := s.in2.length
    let n := le s.in2
    match keyExponent rsaMaxPublicBytes nb n s.in3 with
    | none => s.fail
    | some e =>
      if s.in1.length ≠ nb ∨ s.in0.length ≠ nb ∨ n ≤ le s.in0 then s.fail
      else
        match s.modexpBlinded (le s.in0) (le s.in1) n e with
        | (none, s1) => s1.fail
        | (some y, s1) => s1.answer (toLE y nb))

/-- `MODEXP_PUB` (R284). -/
def execModexpPub (s : State) : Outcome :=
  .next (s.rsaCommand fun s =>
    let nb := s.in2.length
    let n := le s.in2
    match keyExponent rsaMaxPublicBytes nb n s.in3 with
    | none => s.fail
    | some e =>
      if s.in0.length ≠ nb ∨ n ≤ le s.in0 then s.fail
      else s.answer (toLE (modexp (le s.in0) e n) nb))

/-- The padded block of `RSA_ENCRYPT` with its draws (R289, R290, R294, R296); `none` where the message does not fit. -/
def State.padCipher (s : State) (pad : Padding) (label m : Bytes) (nb : Nat) : Option Bytes × State :=
  match pad with
  | .null => (if m.length ≤ nb then some (zeros (nb - m.length) ++ m) else none, s)
  | .pkcs1 =>
    if m.length + 11 ≤ nb then
      let (ps, s1) := State.drawNonzeroBytes (nb - m.length - 3) s
      (some (emePkcs1 m ps), s1)
    else (none, s)
  | .oaep h =>
    if oaepFits h m.length nb then
      let (seed, s1) := State.drawBytes h.digestBytes s
      (some (oaepEncode h label m seed nb), s1)
    else (none, s)
  | _ => (none, s)

/-- The padded block of `RSA_SIGN` with its draws (R288, R292, R294, R298); `none` where the modulus is too short. -/
def State.padSignature (s : State) (pad : Padding) (digest : Bytes) (n nb : Nat) : Option Bytes × State :=
  match pad with
  | .null => (some digest, s)
  | .pkcs1Hash h => (emsaPkcs1 h digest nb, s)
  | .pss h =>
    if pssFits h n then
      let (salt, s1) := State.drawBytes (pssSaltLen h n) s
      (some (pssEncode h digest salt n nb), s1)
    else (none, s)
  | _ => (none, s)

/-- `RSA_ENCRYPT.padding.hash` (R296). -/
def execRsaEncrypt (padding hash : BitVec 4) (s : State) : Outcome :=
  .next (s.rsaCommand fun s =>
    let nb := s.in2.length
    let n := be s.in2
    match cipherPadding padding hash, keyExponent rsaMaxPrivateBytes nb n s.in3 with
    | some pad, some e =>
      match s.padCipher pad s.in1 s.in0 nb with
      | (none, s1) => s1.fail
      | (some em, s1) => if n ≤ be em then s1.fail else s1.answer (toBE (modexp (be em) e n) nb)
    | _, _ => s.fail)

/-- The length rule of `IN1` in `RSA_DECRYPT`: `nb` bytes of `d`, followed by a label for OAEP only (R280, R297). -/
def decryptKeyLenOk (pad : Padding) (len nb : Nat) : Bool :=
  match pad with
  | .oaep _ => nb ≤ len
  | _ => len == nb

/-- `RSA_DECRYPT.padding.hash` (R297). -/
def execRsaDecrypt (padding hash : BitVec 4) (s : State) : Outcome :=
  .next (s.rsaCommand fun s =>
    let nb := s.in2.length
    let n := be s.in2
    match cipherPadding padding hash, keyExponent rsaMaxPrivateBytes nb n s.in3 with
    | some pad, some e =>
      if s.in0.length ≠ nb ∨ decryptKeyLenOk pad s.in1.length nb = false ∨ n ≤ be s.in0 then s.fail
      else
        match s.modexpBlinded (be s.in0) (be (s.in1.take nb)) n e with
        | (none, s1) => s1.fail
        | (some m, s1) =>
          match unpadCipher pad (s.in1.drop nb) (toBE m nb) with
          | none => s1.fail
          | some msg => s1.answer msg
    | _, _ => s.fail)

/-- `RSA_SIGN.padding.hash` (R298). -/
def execRsaSign (padding hash : BitVec 4) (s : State) : Outcome :=
  .next (s.rsaCommand fun s =>
    let nb := s.in2.length
    let n := be s.in2
    match signaturePadding padding hash, keyExponent rsaMaxPrivateBytes nb n s.in3 with
    | some pad, some e =>
      if s.in1.length ≠ nb ∨ s.in0.length ≠ signatureOperandLen pad nb then s.fail
      else
        match s.padSignature pad s.in0 n nb with
        | (none, s1) => s1.fail
        | (some em, s1) =>
          if n ≤ be em then s1.fail
          else
            match s1.modexpBlinded (be em) (be s.in1) n e with
            | (none, s2) => s2.fail
            | (some sg, s2) => s2.answer (toBE sg nb)
    | _, _ => s.fail)

/-- `RSA_VERIFY.padding.hash` (R299). -/
def execRsaVerify (padding hash : BitVec 4) (s : State) : Outcome :=
  .next (s.rsaCommand fun s =>
    match signaturePadding padding hash with
    | none => s.fail
    | some pad => s.verdict (rsaVerifyValue pad s.in0 s.in1 s.in2 s.in3))

end Sys2Proof.Machine
end

