-- ==== Sys2Proof/Machine/SysCmds.lean ====
section
/-! DEFINITION. The meanings of `EQUALS` and `HWSTAT` (R350, R351). Neither is gated (R392). -/

namespace Sys2Proof.Machine

/-- `EQUALS #len` (R350). -/
def execEquals (len : BitVec 16) (s : State) : Outcome :=
  .next (s.verdict
    (s.in0.length == len.toNat && s.in1.length == len.toNat && equals s.in0 s.in1 len.toNat))

/-- The word of `HWSTAT` (R351). -/
def State.hwStatus (s : State) : Word :=
  (match s.shaHwOwner with
    | none => 0
    | some owner => 1 ||| (owner.setWidth 32 <<< 4)) |||
  (if s.engineBusy then 0x100 else 0)

/-- `HWSTAT` (R351). -/
def execHwstat (s : State) : Outcome := .next (s.answer (wordBytes s.hwStatus))

end Sys2Proof.Machine
end

