-- ==== Sys2Proof/Machine/TrngCmds.lean ====
section
/-! DEFINITION. The meanings of the TRNG unit (R197, R198). -/

namespace Sys2Proof.Machine

/-- `TRNG_STARTUP` (R197). Not gated. -/
def execTrngStartup (s : State) : Outcome :=
  .next (match s.trngStartup with
    | (true, s1) => s1.done
    | (false, s1) => s1.fail)

/-- `TRNG_WORD` (R198). -/
def execTrngWord (s : State) : Outcome :=
  .next (s.gated fun s =>
    match s.trngWord with
    | (none, s1) => s1.fail
    | (some w, s1) => s1.answer (wordBytes w))

end Sys2Proof.Machine
end

