-- ==== Sys2Proof/Machine/Dispatch.lean ====
section
/-! DEFINITION. The dispatch: one arm per constructor of `Instr`, each one call of its meaning. -/

namespace Sys2Proof.Machine

def exec (i : Instr) (s : State) : Host.Outcome State Fault Refusal :=
  match i with
  | .equals arg => Sys2Proof.Machine.execEquals arg s
  | .hwstat => Sys2Proof.Machine.execHwstat s
  | .hashInit alg slot path => Sys2Proof.Machine.execHashInit alg slot path s
  | .hashUpdate slot => Sys2Proof.Machine.execHashUpdate slot s
  | .hashFinal slot => Sys2Proof.Machine.execHashFinal slot s
  | .hashSize alg => Sys2Proof.Machine.execHashSize alg s
  | .hashBlockSize alg => Sys2Proof.Machine.execHashBlockSize alg s
  | .hmacInit alg slot path => Sys2Proof.Machine.execHmacInit alg slot path s
  | .hmacUpdate slot => Sys2Proof.Machine.execHmacUpdate slot s
  | .hmacFinal slot => Sys2Proof.Machine.execHmacFinal slot s
  | .hkdf alg arg => Sys2Proof.Machine.execHkdf alg arg s
  | .trngStartup => Sys2Proof.Machine.execTrngStartup s
  | .trngWord => Sys2Proof.Machine.execTrngWord s
  | .drbgInit slot => Sys2Proof.Machine.execDrbgInit slot s
  | .drbgReseed slot => Sys2Proof.Machine.execDrbgReseed slot s
  | .drbgGenerate slot arg => Sys2Proof.Machine.execDrbgGenerate slot arg s
  | .drbgExit slot => Sys2Proof.Machine.execDrbgExit slot s
  | .drbgInitRfc6979 slot => Sys2Proof.Machine.execDrbgInitRfc6979 slot s
  | .randBytes arg => Sys2Proof.Machine.execRandBytes arg s
  | .aesEcbEnc alg => Sys2Proof.Machine.execAesEcbEnc alg s
  | .aesEcbDec alg => Sys2Proof.Machine.execAesEcbDec alg s
  | .aesCtr alg => Sys2Proof.Machine.execAesCtr alg s
  | .aesCbcEnc alg => Sys2Proof.Machine.execAesCbcEnc alg s
  | .aesCbcDec alg => Sys2Proof.Machine.execAesCbcDec alg s
  | .aesCmac alg => Sys2Proof.Machine.execAesCmac alg s
  | .modexpBlinded => Sys2Proof.Machine.execModexpBlinded s
  | .modexpPub => Sys2Proof.Machine.execModexpPub s
  | .rsaEncrypt alg slot => Sys2Proof.Machine.execRsaEncrypt alg slot s
  | .rsaDecrypt alg slot => Sys2Proof.Machine.execRsaDecrypt alg slot s
  | .rsaSign alg slot => Sys2Proof.Machine.execRsaSign alg slot s
  | .rsaVerify alg slot => Sys2Proof.Machine.execRsaVerify alg slot s
  | .p256KeyFromBytes => Sys2Proof.Machine.execP256KeyFromBytes s
  | .p256BaseMul => Sys2Proof.Machine.execP256BaseMul s
  | .p256PointMul => Sys2Proof.Machine.execP256PointMul s
  | .ecdsaSignRaw => Sys2Proof.Machine.execEcdsaSignRaw s
  | .ecdsaSign slot => Sys2Proof.Machine.execEcdsaSign slot s
  | .ecdsaVerify => Sys2Proof.Machine.execEcdsaVerify s
  | .fipsPowerOn => Sys2Proof.Machine.execFipsPowerOn s
  | .fipsStatus => Sys2Proof.Machine.execFipsStatus s
  | .fipsAllowed => Sys2Proof.Machine.execFipsAllowed s
  | .fipsThrowErr arg => Sys2Proof.Machine.execFipsThrowErr arg s
  | .fipsKat alg => Sys2Proof.Machine.execFipsKat alg s
  | .fipsInject arg => Sys2Proof.Machine.execFipsInject arg s

end Sys2Proof.Machine
end

