-- ==== Sys2Proof/Machine/Step.lean ====
section
/-! DEFINITION. One step of the block: the next event of the schedule, a command or a reset event (R83, R90, R421). -/

namespace Sys2Proof.Machine

/-- A host can offer these ports: each fits `MAX_BUF` (R31, R81). -/
def portsFit (maxBuf : Nat) (in0 in1 in2 in3 : Bytes) : Bool :=
  in0.length ≤ maxBuf && in1.length ≤ maxBuf && in2.length ≤ maxBuf && in3.length ≤ maxBuf

/-- The event at the head of the schedule is taken off it. -/
def State.withSchedule (s : State) (rest : List Event) : State := { s with env := { s.env with schedule := rest } }

/-- The host's write of `CMD` and the input ports (R31); a command is the whole of it (R403). -/
def State.issue (s : State) (cmd : Word) (in0 in1 in2 in3 : Bytes) : State :=
  { s with cmd := cmd, in0 := in0, in1 := in1, in2 := in2, in3 := in3 }

/-- The engine's execution of the command in `CMD` (R83, R120): an illegal word is `return FAIL` and nothing else (R116). -/
def State.execute (s : State) : Host.Outcome State Fault Refusal :=
  match decode s.cmd with
  | .ok i => exec i s
  | .error _ => .next s.fail

/-- One step: a command of a host task, executed whole, or a reset event between commands (R83, R421). With nothing
scheduled nothing happens. DESIGN CHOICE (log 1). -/
def step (s : State) : Host.Outcome State Fault Refusal :=
  match s.env.schedule with
  | [] => .next s
  | .hardReset :: rest => .next (s.withSchedule rest).hardReset
  | .resume :: rest => .next (s.withSchedule rest).resume
  | .command cmd a b c d :: rest =>
    if portsFit s.cfg.maxBuf a b c d then ((s.withSchedule rest).issue cmd a b c d).execute
    else .fault .portTooLong

/-- `s` with the command word `w` (of `nbits` bits) as the next event of the schedule, on the input ports as they stand: the
host task issues that command next (log 1). -/
def State.withFetchWord (s : State) (nbits w : Nat) : State :=
  s.withSchedule
    (.command (BitVec.ofNat 32 (w % 2 ^ nbits)) s.in0 s.in1 s.in2 s.in3 :: s.env.schedule)

end Sys2Proof.Machine
end

