-- ==== Sys2Proof/Safety.lean ====
section
/-! DEFINITION. The terms in which claims are stated: the opcode table as data, which commands may do what (R392, R390, R89),
the invariants of the state, and what a good noise stream, a good key and a sequence of commands are. -/

namespace Sys2Proof

/-- One row of spec/opcode_table.json: a word matches it when `word &&& mask = bits` (R117). -/
structure OpcodeRow where
  mnemonic : String
  mask : Word
  bits : Word
  deriving DecidableEq, Repr

/-- The 43 rows of spec/opcode_table.json (R115), in its order. -/
def opcodeRows : List OpcodeRow :=
  [⟨"EQUALS", 0xFFFF0000, 0x00000000⟩,
   ⟨"HWSTAT", 0xFFFFFFFF, 0x01000000⟩,
   ⟨"HASH_INIT", 0xFF00FFFC, 0x10000000⟩,
   ⟨"HASH_UPDATE", 0xFFF0FFFF, 0x11000000⟩,
   ⟨"HASH_FINAL", 0xFFF0FFFF, 0x12000000⟩,
   ⟨"HASH_SIZE", 0xFF0FFFFF, 0x13000000⟩,
   ⟨"HASH_BLOCK_SIZE", 0xFF0FFFFF, 0x14000000⟩,
   ⟨"HMAC_INIT", 0xFF00FFFC, 0x20000000⟩,
   ⟨"HMAC_UPDATE", 0xFFF0FFFF, 0x21000000⟩] ++
  [⟨"HMAC_FINAL", 0xFFF0FFFF, 0x22000000⟩,
   ⟨"HKDF", 0xFF0F0000, 0x23000000⟩,
   ⟨"TRNG_STARTUP", 0xFFFFFFFF, 0x30000000⟩,
   ⟨"TRNG_WORD", 0xFFFFFFFF, 0x31000000⟩,
   ⟨"DRBG_INIT", 0xFFF0FFFF, 0x40000000⟩,
   ⟨"DRBG_RESEED", 0xFFF0FFFF, 0x41000000⟩,
   ⟨"DRBG_GENERATE", 0xFFF00000, 0x42000000⟩,
   ⟨"DRBG_EXIT", 0xFFF0FFFF, 0x43000000⟩,
   ⟨"DRBG_INIT_RFC6979", 0xFFF0FFFF, 0x44000000⟩] ++
  [⟨"RAND_BYTES", 0xFFFF0000, 0x45000000⟩,
   ⟨"AES_ECB_ENC", 0xFF0FFFFF, 0x50000000⟩,
   ⟨"AES_ECB_DEC", 0xFF0FFFFF, 0x51000000⟩,
   ⟨"AES_CTR", 0xFF0FFFFF, 0x52000000⟩,
   ⟨"AES_CBC_ENC", 0xFF0FFFFF, 0x53000000⟩,
   ⟨"AES_CBC_DEC", 0xFF0FFFFF, 0x54000000⟩,
   ⟨"AES_CMAC", 0xFF0FFFFF, 0x55000000⟩,
   ⟨"MODEXP_BLINDED", 0xFFFFFFFF, 0x60000000⟩,
   ⟨"MODEXP_PUB", 0xFFFFFFFF, 0x61000000⟩] ++
  [⟨"RSA_ENCRYPT", 0xFF00FFFF, 0x62000000⟩,
   ⟨"RSA_DECRYPT", 0xFF00FFFF, 0x63000000⟩,
   ⟨"RSA_SIGN", 0xFF00FFFF, 0x64000000⟩,
   ⟨"RSA_VERIFY", 0xFF00FFFF, 0x65000000⟩,
   ⟨"P256_KEY_FROM_BYTES", 0xFFFFFFFF, 0x70000000⟩,
   ⟨"P256_BASE_MUL", 0xFFFFFFFF, 0x71000000⟩,
   ⟨"P256_POINT_MUL", 0xFFFFFFFF, 0x72000000⟩,
   ⟨"ECDSA_SIGN_RAW", 0xFFFFFFFF, 0x73000000⟩,
   ⟨"ECDSA_SIGN", 0xFFF0FFFF, 0x74000000⟩] ++
  [⟨"ECDSA_VERIFY", 0xFFFFFFFF, 0x75000000⟩,
   ⟨"FIPS_POWER_ON", 0xFFFFFFFF, 0x80000000⟩,
   ⟨"FIPS_STATUS", 0xFFFFFFFF, 0x81000000⟩,
   ⟨"FIPS_ALLOWED", 0xFFFFFFFF, 0x82000000⟩,
   ⟨"FIPS_THROW_ERR", 0xFFFF0000, 0x83000000⟩,
   ⟨"FIPS_KAT", 0xFF0FFFFF, 0x84000000⟩,
   ⟨"FIPS_INJECT", 0xFFFF0000, 0x85000000⟩]

/-- The exception that the masks cannot express (R117): path selector 3 in `HASH_INIT` or `HMAC_INIT`. -/
def pathThree (w : Word) : Prop := (w >>> 24 = 0x10 ∨ w >>> 24 = 0x20) ∧ w &&& 3 = 3

/-- The mnemonic of an instruction's row (R115). -/
def Instr.mnemonic : Instr → String
  | .equals _ => "EQUALS"
  | .hwstat => "HWSTAT"
  | .hashInit _ _ _ => "HASH_INIT"
  | .hashUpdate _ => "HASH_UPDATE"
  | .hashFinal _ => "HASH_FINAL"
  | .hashSize _ => "HASH_SIZE"
  | .hashBlockSize _ => "HASH_BLOCK_SIZE"
  | .hmacInit _ _ _ => "HMAC_INIT"
  | .hmacUpdate _ => "HMAC_UPDATE"
  | .hmacFinal _ => "HMAC_FINAL"
  | .hkdf _ _ => "HKDF"
  | .trngStartup => "TRNG_STARTUP"
  | .trngWord => "TRNG_WORD"
  | .drbgInit _ => "DRBG_INIT"
  | .drbgReseed _ => "DRBG_RESEED"
  | .drbgGenerate _ _ => "DRBG_GENERATE"
  | .drbgExit _ => "DRBG_EXIT"
  | .drbgInitRfc6979 _ => "DRBG_INIT_RFC6979"
  | .randBytes _ => "RAND_BYTES"
  | .aesEcbEnc _ => "AES_ECB_ENC"
  | .aesEcbDec _ => "AES_ECB_DEC"
  | .aesCtr _ => "AES_CTR"
  | .aesCbcEnc _ => "AES_CBC_ENC"
  | .aesCbcDec _ => "AES_CBC_DEC"
  | .aesCmac _ => "AES_CMAC"
  | .modexpBlinded => "MODEXP_BLINDED"
  | .modexpPub => "MODEXP_PUB"
  | .rsaEncrypt _ _ => "RSA_ENCRYPT"
  | .rsaDecrypt _ _ => "RSA_DECRYPT"
  | .rsaSign _ _ => "RSA_SIGN"
  | .rsaVerify _ _ => "RSA_VERIFY"
  | .p256KeyFromBytes => "P256_KEY_FROM_BYTES"
  | .p256BaseMul => "P256_BASE_MUL"
  | .p256PointMul => "P256_POINT_MUL"
  | .ecdsaSignRaw => "ECDSA_SIGN_RAW"
  | .ecdsaSign _ => "ECDSA_SIGN"
  | .ecdsaVerify => "ECDSA_VERIFY"
  | .fipsPowerOn => "FIPS_POWER_ON"
  | .fipsStatus => "FIPS_STATUS"
  | .fipsAllowed => "FIPS_ALLOWED"
  | .fipsThrowErr _ => "FIPS_THROW_ERR"
  | .fipsKat _ => "FIPS_KAT"
  | .fipsInject _ => "FIPS_INJECT"

/-- The 31 gated commands of R392. -/
def Instr.gated : Instr → Bool
  | .equals _ => false
  | .hwstat => false
  | .hashInit _ _ _ => true
  | .hashUpdate _ => true
  | .hashFinal _ => true
  | .hashSize _ => false
  | .hashBlockSize _ => false
  | .hmacInit _ _ _ => true
  | .hmacUpdate _ => true
  | .hmacFinal _ => true
  | .hkdf _ _ => true
  | .trngStartup => false
  | .trngWord => true
  | .drbgInit _ => true
  | .drbgReseed _ => true
  | .drbgGenerate _ _ => true
  | .drbgExit _ => false
  | .drbgInitRfc6979 _ => true
  | .randBytes _ => true
  | .aesEcbEnc _ => true
  | .aesEcbDec _ => true
  | .aesCtr _ => true
  | .aesCbcEnc _ => true
  | .aesCbcDec _ => true
  | .aesCmac _ => true
  | .modexpBlinded => true
  | .modexpPub => true
  | .rsaEncrypt _ _ => true
  | .rsaDecrypt _ _ => true
  | .rsaSign _ _ => true
  | .rsaVerify _ _ => true
  | .p256KeyFromBytes => true
  | .p256BaseMul => true
  | .p256PointMul => true
  | .ecdsaSignRaw => true
  | .ecdsaSign _ => true
  | .ecdsaVerify => true
  | .fipsPowerOn => false
  | .fipsStatus => false
  | .fipsAllowed => false
  | .fipsThrowErr _ => false
  | .fipsKat _ => false
  | .fipsInject _ => false

/-- The commands that can ask the noise source for words (R89, R393). -/
def Instr.asksNoise : Instr → Bool
  | .equals _ => false
  | .hwstat => false
  | .hashInit _ _ _ => false
  | .hashUpdate _ => false
  | .hashFinal _ => false
  | .hashSize _ => false
  | .hashBlockSize _ => false
  | .hmacInit _ _ _ => false
  | .hmacUpdate _ => false
  | .hmacFinal _ => false
  | .hkdf _ _ => false
  | .trngStartup => true
  | .trngWord => true
  | .drbgInit _ => false
  | .drbgReseed _ => false
  | .drbgGenerate _ _ => true
  | .drbgExit _ => false
  | .drbgInitRfc6979 _ => false
  | .randBytes _ => true
  | .aesEcbEnc _ => false
  | .aesEcbDec _ => false
  | .aesCtr _ => false
  | .aesCbcEnc _ => false
  | .aesCbcDec _ => false
  | .aesCmac _ => false
  | .modexpBlinded => false
  | .modexpPub => false
  | .rsaEncrypt _ _ => false
  | .rsaDecrypt _ _ => false
  | .rsaSign _ _ => false
  | .rsaVerify _ _ => false
  | .p256KeyFromBytes => false
  | .p256BaseMul => false
  | .p256PointMul => false
  | .ecdsaSignRaw => false
  | .ecdsaSign _ => true
  | .ecdsaVerify => false
  | .fipsPowerOn => true
  | .fipsStatus => false
  | .fipsAllowed => false
  | .fipsThrowErr _ => false
  | .fipsKat _ => false
  | .fipsInject _ => false

/-- The commands that can make other draws: blinding (R244, R282), padding (R289, R290, R292), the pairwise test (R256). -/
def Instr.makesDraws : Instr → Bool
  | .equals _ => false
  | .hwstat => false
  | .hashInit _ _ _ => false
  | .hashUpdate _ => false
  | .hashFinal _ => false
  | .hashSize _ => false
  | .hashBlockSize _ => false
  | .hmacInit _ _ _ => false
  | .hmacUpdate _ => false
  | .hmacFinal _ => false
  | .hkdf _ _ => false
  | .trngStartup => false
  | .trngWord => false
  | .drbgInit _ => false
  | .drbgReseed _ => false
  | .drbgGenerate _ _ => false
  | .drbgExit _ => false
  | .drbgInitRfc6979 _ => false
  | .randBytes _ => false
  | .aesEcbEnc _ => false
  | .aesEcbDec _ => false
  | .aesCtr _ => false
  | .aesCbcEnc _ => false
  | .aesCbcDec _ => false
  | .aesCmac _ => false
  | .modexpBlinded => true
  | .modexpPub => false
  | .rsaEncrypt _ _ => true
  | .rsaDecrypt _ _ => true
  | .rsaSign _ _ => true
  | .rsaVerify _ _ => false
  | .p256KeyFromBytes => true
  | .p256BaseMul => true
  | .p256PointMul => true
  | .ecdsaSignRaw => true
  | .ecdsaSign _ => true
  | .ecdsaVerify => false
  | .fipsPowerOn => false
  | .fipsStatus => false
  | .fipsAllowed => false
  | .fipsThrowErr _ => false
  | .fipsKat _ => false
  | .fipsInject _ => false

end Sys2Proof

namespace Sys2Proof

/-- The error bits that a command can raise (R390, R393). -/
def Instr.mayRaise : Instr → Word
  | .trngStartup => 0x6
  | .trngWord => 0x6
  | .drbgGenerate _ _ => 0x6
  | .randBytes _ => 0x6
  | .ecdsaSign _ => 0x6
  | .p256KeyFromBytes => 0x80
  | .fipsPowerOn => 0x3F6
  | .fipsThrowErr mask => mask.setWidth 32
  | .fipsKat kat => [0, 0x10, 0x20, 0x80, 0x200, 0x40, 0x100].getD kat.toNat 0
  | _ => 0

/-- The context slot that a command names (R112). -/
def Instr.ctxSlot : Instr → Option (BitVec 4)
  | .hashInit _ i _ => some i
  | .hashUpdate i => some i
  | .hashFinal i => some i
  | .hmacInit _ i _ => some i
  | .hmacUpdate i => some i
  | .hmacFinal i => some i
  | _ => none

/-- The DRBG slot that a command names, or slot 0 for `RAND_BYTES` (R112, R222). -/
def Instr.drbgSlot : Instr → Option (BitVec 4)
  | .drbgInit i => some i
  | .drbgReseed i => some i
  | .drbgGenerate i _ => some i
  | .drbgExit i => some i
  | .drbgInitRfc6979 i => some i
  | .randBytes _ => some 0
  | .ecdsaSign i => some i
  | _ => none

end Sys2Proof

namespace Sys2Proof.Machine

/-- The state words are those of the algorithm's core (R40, R147). -/
def HashAlg.hasWords : HashAlg → HashWords → Bool
  | .sha1, .core1 _ => true
  | .sha224, .core256 _ => true
  | .sha256, .core256 _ => true
  | .sha384, .core512 _ => true
  | .sha512, .core512 _ => true
  | _, _ => false

/-- The invariant of a live context (R40, R155). `FINAL` empties `buf` and keeps `count` (R152), so the relation between them
is one of the active phase (log 13). -/
def HashCtx.WellFormed (c : HashCtx) : Prop :=
  c.alg.hasWords c.h = true ∧ c.count < 2 ^ 61 ∧
    (c.phase = .active → c.buf.length = c.count % c.alg.blockBytes ∧ c.digest = []) ∧
    (c.phase = .finalized → c.buf = [] ∧ c.digest.length = c.alg.digestBytes)

/-- The invariant of a slot: that of its context, and the key-block rules of R41 and R175. -/
def CtxSlot.WellFormed : CtxSlot → Prop
  | .none => True
  | .hash c => c.WellFormed
  | .hmac c okey =>
    c.WellFormed ∧ okey.length = c.alg.blockBytes ∧ (c.phase = .finalized → okey = zeros c.alg.blockBytes)

/-- Every slot is well formed, and the places from `N_CTX` on hold nothing (R40, log 8). -/
def State.ContextsWellFormed (s : State) : Prop :=
  ∀ i : BitVec 4, (s.ctxAt i).WellFormed ∧ (s.cfg.nCtx ≤ i.toNat → s.ctxAt i = .none)

/-- The context of a live slot, of either kind. -/
def CtxSlot.context : CtxSlot → Option HashCtx
  | .none => Option.none
  | .hash c => Option.some c
  | .hmac c _ => Option.some c

/-- The slot runs an unfinished context on the hash hardware (R46, R433). -/
def CtxSlot.holdsHardware (slot : CtxSlot) : Bool :=
  match slot.context with
  | Option.none => false
  | Option.some c => c.phase == .active && c.path == .hw

/-- `SHA_HW_OWNER` names exactly the slot that holds the hash hardware (R39, R40, R85). -/
def State.HardwareOwnerRight (s : State) : Prop :=
  ∀ i : BitVec 4, s.shaHwOwner = some i ↔ (s.ctxAt i).holdsHardware = true

/-- The invariant of the DRBG file: `K` and `V` of 32 bytes, a live counter between 1 and the sentinel (R42, R220), and
nothing live from `N_DRBG` on (log 8). -/
def State.DrbgsWellFormed (s : State) : Prop :=
  ∀ i : BitVec 4, (s.drbgAt i).k.length = 32 ∧ (s.drbgAt i).v.length = 32 ∧
    ((s.drbgAt i).cookie = .valid →
      1 ≤ (s.drbgAt i).reseedCounter.toNat ∧ (s.drbgAt i).reseedCounter.toNat ≤ s.cfg.noAutoReseed.toNat) ∧
    (s.cfg.nDrbg ≤ i.toNat → (s.drbgAt i).cookie = .invalid)

/-- The samples of a stream of noise words, in order (R191). -/
def sampleStream (ws : List Word) : List Bool := ws.flatMap samplesOf

/-- The number of one samples. -/
def onesIn (ws : List Word) : Nat := (sampleStream ws).countP id

/-- No 52 equal samples in a row (R192). -/
def NoLongRun (samples : List Bool) : Prop := ∀ b : Bool, ¬ List.replicate 52 b <:+: samples

/-- Every 32 words in a row have between 316 and 708 ones (R193). -/
def WindowsFair (ws : List Word) : Prop :=
  ∀ window : List Word, window <:+: ws → window.length = 32 → 316 ≤ onesIn window ∧ onesIn window ≤ 708

/-- The invariant of the TRNG record: the window holds at most 32 words (R44), the latch is equivalent to one of the two TRNG
bits (R44), without it no run has reached 52 and so the run length is the counter of R401, and with it the run has gone on for at
most one word (R192, R194); a healthy source has a full window of a fair proportion (R193, R200). -/
def State.TrngWellFormed (s : State) : Prop :=
  s.trng.window.length ≤ 32 ∧ s.trng.runLen ≤ 51 + 32 ∧
    (s.trng.failed = true ↔ s.fipsStatus &&& 0x6 ≠ 0) ∧
    (s.trng.failed = false → s.trng.runLen < 52 ∧ s.trng.runCounter = s.trng.runLen) ∧
    (s.trng.healthy = true →
      s.trng.window.length = 32 ∧ 316 ≤ onesIn s.trng.window ∧ onesIn s.trng.window ≤ 708)

/-- The invariant of the gate: the reserved bits 29:16 are 0, the two signal bits go together (R35, R360), the persisted flag
means that no error happened since (R37, R394), and an open gate has the flag and a healthy TRNG behind it (R360). -/
def State.GateWellFormed (s : State) : Prop :=
  s.fipsStatus &&& 0x3FFF0000 = 0 ∧ s.fipsStatus.getLsbD 31 = s.fipsStatus.getLsbD 30 ∧
    (s.pwrupDonePersist = true → s.hasError = false) ∧
    (s.cryptoAllowed = true → s.pwrupDonePersist = true ∧ s.trng.healthy = true)

/-- Every port is within `MAX_BUF` (R31, R81), and the engine lock is free (R39, R84). -/
def State.PortsWellFormed (s : State) : Prop :=
  s.in0.length ≤ s.cfg.maxBuf ∧ s.in1.length ≤ s.cfg.maxBuf ∧ s.in2.length ≤ s.cfg.maxBuf ∧
    s.in3.length ≤ s.cfg.maxBuf ∧ s.out0.length ≤ s.cfg.maxBuf ∧ s.out1.length ≤ s.cfg.maxBuf ∧ s.engineBusy = false

/-- The values that R48 states for both reset events. -/
def State.AfterReset (s : State) : Prop :=
  s.fipsStatus = 0 ∧ s.fipsInject = 0 ∧ s.shaHwOwner = none ∧ s.engineBusy = false ∧
    (∀ i : BitVec 4, s.ctxAt i = .none) ∧ (∀ i : BitVec 4, (s.drbgAt i).cookie = .invalid) ∧
    s.trng = { runBit := none, runLen := 0, window := [], healthy := false, failed := false } ∧
    s.out0 = [] ∧ s.out1 = []

/-- One command: the host writes `CMD` and the input ports, the engine executes (R83, R403). -/
def CommandLeads (s t : State) : Prop :=
  ∃ (w : Word) (a b c d : Bytes), (s.issue w a b c d).execute = .next t

/-- Any number of commands and no reset event: a stretch of one power cycle (R422). -/
def CommandsLead : State → State → Prop := Relation.ReflTransGen CommandLeads

/-- The state after one `UPDATE` command for each piece, in order; `none` where one of them does not answer `OK`. -/
def State.afterUpdates (update : Instr) : List Bytes → State → Option State
  | [], s => some s
  | m :: ms, s =>
    match exec update { s with in0 := m } with
    | .next t => if t.res = 0 then State.afterUpdates update ms t else none
    | .fault _ => none
    | .refused _ => none

/-- `T(i)` of R176: `T(0)` is empty, `T(i) = HMAC(PRK, T(i-1) ‖ info ‖ byte(i))`. -/
def hkdfBlock (prk info : Bytes) : Nat → Bytes
  | 0 => []
  | i + 1 => hmac .sha256 prk (hkdfBlock prk info i ++ info ++ [BitVec.ofNat 8 (i + 1)])

/-- `key_ok(maxbytes)` of R280 without its clause on the private exponent, for the modulus value `n`. -/
def KeyOk (maxBytes : Nat) (modulus ePort : Bytes) (n : Nat) : Prop :=
  modulus.length % 32 = 0 ∧ 32 ≤ modulus.length ∧ modulus.length ≤ maxBytes ∧ ePort.length = 4 ∧ le ePort % 2 = 1 ∧
    n % 2 = 1 ∧ 3 ≤ n

/-- The blinder that the next draw gives (R282; zero is not possible, log 4). -/
def State.nextBlinder (s : State) : Nat := if s.env.nextDraw % 2 ^ 64 = 0 then 1 else s.env.nextDraw % 2 ^ 64

/-- The legal selectors of `RSA_ENCRYPT` and `RSA_DECRYPT` in the table of R295. -/
def CipherSelectorsLegal (padding hash : BitVec 4) : Prop :=
  padding = 0 ∧ hash = 0 ∨ padding = 1 ∧ hash = 0 ∨ padding = 2 ∧ (hash = 1 ∨ hash = 3 ∨ hash = 4 ∨ hash = 5)

/-- The legal selectors of `RSA_SIGN` and `RSA_VERIFY` in the table of R295. -/
def SignatureSelectorsLegal (padding hash : BitVec 4) : Prop :=
  padding = 0 ∧ hash = 0 ∨ (padding = 1 ∨ padding = 3) ∧ (hash = 1 ∨ hash = 3 ∨ hash = 4 ∨ hash = 5)

/-- The command ends with `FAIL` and empty outputs and leaves everything else, the engine lock free. -/
def FailsUnlocked (i : Instr) (s : State) : Prop :=
  exec i s = .next { s with engineBusy := false, out0 := [], out1 := [], res := 1 }

/-- What a TRNG startup that meets a bad word leaves of `s` (R194, R197): it latches the failure, adds an error bit of the
TRNG and no other bit, clears the persisted flag, and changes nothing else but the noise to come. The command that ran it
answers `FAIL`. -/
def State.LeftByBadStartup (s t : State) : Prop :=
  t = { s with
    trng := t.trng, fipsStatus := t.fipsStatus, pwrupDonePersist := false,
    env := { s.env with noise := t.env.noise, noiseCount := t.env.noiseCount }, out0 := [], out1 := [], res := 1 } ∧
  t.trng.failed = true ∧ t.trng.healthy = false ∧ t.fipsStatus &&& 0x6 ≠ 0 ∧
  t.fipsStatus &&& ~~~0x6 = s.fipsStatus &&& ~~~0x6

/-- The sizes of the generate calls of `RAND_BYTES #n` (R222). -/
def randPieces (n : Nat) : List Nat := List.replicate (n / 937) 937 ++ if n % 937 = 0 then [] else [n % 937]

/-- One generate call on the singleton for each size, in order, with empty additional input, until one is not `OK`: the code,
the outputs joined (none where a call is not `OK`) and the state (R222). -/
def State.generateAll : List Nat → State → Result × Bytes × State
  | [], s => (.ok, [], s)
  | size :: sizes, s =>
    match s.drbgGenerate 0 size [] with
    | (.ok, part, s1) =>
      match State.generateAll sizes s1 with
      | (.ok, rest, s2) => (.ok, part ++ rest, s2)
      | (code, _, s2) => (code, [], s2)
    | (code, _, s1) => (code, [], s1)

/-- Block `j` of 16 bytes. -/
def blockAt (s : Bytes) (j : Nat) : Bytes := slice s (16 * j) (16 * j + 16)

end Sys2Proof.Machine
end

