-- ==== Sys2Proof/Certificates/Slice0/Obligations.lean ====
section
/-! DEFINITION. The statements for the provers. A result is written as the whole next state, so that everything it does not
name is unchanged (the frame). `RES` is 0 for `OK`, 1 for `FAIL`, 2 for `RETRY`, 3 for `RESEED_NEEDED` (R34). -/

open Sys2Proof Sys2Proof.Machine

/-! ## Encoding -/

/-- R110, R115, R117: a legal instruction's word decodes to it, and a word that decodes is the word of its instruction. -/
def Obligations.DecodeEncodeAgree : Prop :=
  (∀ i : Instr, i.wellFormed = true → decode (encode i) = .ok i) ∧
    ∀ (w : Word) (i : Instr), decode w = .ok i → i.wellFormed = true ∧ encode i = w

/-- R116, R117: the decoder accepts exactly the words that match a row of the opcode table, path selector 3 apart, and it
reads the row's instruction. -/
def Obligations.DecodeMatchesOpcodeTable : Prop :=
  (∀ (w : Word) (i : Instr), decode w = .ok i →
    ¬ pathThree w ∧ ∃ row ∈ opcodeRows, w &&& row.mask = row.bits ∧ row.mnemonic = i.mnemonic) ∧
  ∀ (w : Word) (row : OpcodeRow), row ∈ opcodeRows → w &&& row.mask = row.bits → ¬ pathThree w →
    ∃ i, decode w = .ok i ∧ i.mnemonic = row.mnemonic

/-- The spec's own examples of command words, one or more of each family. -/
def Obligations.ExampleWordsDecode : Prop :=
  decode 0x00000004 = .ok (.equals 4) ∧ decode 0x10300001 = .ok (.hashInit 3 0 1) ∧
  decode 0x20310000 = .ok (.hmacInit 3 1 0) ∧ decode 0x2330002A = .ok (.hkdf 3 42) ∧
  decode 0x31000000 = .ok .trngWord ∧ decode 0x42010030 = .ok (.drbgGenerate 1 48) ∧
  decode 0x53200000 = .ok (.aesCbcEnc 2) ∧ decode 0x64130000 = .ok (.rsaSign 1 3) ∧
  decode 0x74010000 = .ok (.ecdsaSign 1) ∧ decode 0x84400000 = .ok (.fipsKat 4)

/-! ## The step -/

/-- R83, R403: a command whose word decodes to `i` is one step, and the step is `exec i` on the state with `CMD` and the four
input ports written and the command taken off the schedule. That commands come from a schedule is the model's choice
(log 1). -/
def Obligations.StepRunsDecodedInstruction : Prop :=
  ∀ (s : State) (w : Word) (a b c d : Bytes) (rest : List Event) (i : Instr),
    s.env.schedule = .command w a b c d :: rest →
    a.length ≤ s.cfg.maxBuf → b.length ≤ s.cfg.maxBuf → c.length ≤ s.cfg.maxBuf → d.length ≤ s.cfg.maxBuf →
    decode w = .ok i →
    step s = exec i { s with
      cmd := w, in0 := a, in1 := b, in2 := c, in3 := d, env := { s.env with schedule := rest } }

/-- R116: a command with an illegal word ends with `FAIL` and empty outputs and changes nothing else but the ports it came
with. That commands come from a schedule is the model's choice (log 1). -/
def Obligations.IllegalWordFails : Prop :=
  ∀ (s : State) (w : Word) (a b c d : Bytes) (rest : List Event) (e : DecodeError),
    s.env.schedule = .command w a b c d :: rest →
    a.length ≤ s.cfg.maxBuf → b.length ≤ s.cfg.maxBuf → c.length ≤ s.cfg.maxBuf → d.length ≤ s.cfg.maxBuf →
    decode w = .error e →
    step s = .next { s with
      cmd := w, in0 := a, in1 := b, in2 := c, in3 := d, env := { s.env with schedule := rest },
      out0 := [], out1 := [], res := 1 }

/-- The model's choices (logs 1 and 9): with nothing scheduled nothing happens; a port longer than `MAX_BUF` stops the
machine, and nothing else does: every other step answers a next state, and no step is refused. -/
def Obligations.StepWithoutCommand : Prop :=
  (∀ s : State, s.env.schedule = [] → step s = .next s) ∧
  (∀ (s : State) (w : Word) (a b c d : Bytes) (rest : List Event),
    s.env.schedule = .command w a b c d :: rest →
    (s.cfg.maxBuf < a.length ∨ s.cfg.maxBuf < b.length ∨ s.cfg.maxBuf < c.length ∨ s.cfg.maxBuf < d.length) →
    step s = .fault .portTooLong) ∧
  ∀ s : State, (∃ t, step s = .next t) ∨ step s = .fault .portTooLong ∧
    ∃ (w : Word) (a b c d : Bytes) (rest : List Event), s.env.schedule = .command w a b c d :: rest ∧
      (s.cfg.maxBuf < a.length ∨ s.cfg.maxBuf < b.length ∨ s.cfg.maxBuf < c.length ∨ s.cfg.maxBuf < d.length)

/-- R48, R420: what both reset events leave, and the one row in which they differ. That the parameters and the inputs to come
are untouched is the model's choice (logs 1, 2, 3 and 4), as is what the absent slots hold (log 8). -/
def Obligations.ResetEventsClearState : Prop :=
  (∀ (s : State) (rest : List Event), s.env.schedule = .hardReset :: rest →
    ∃ t, step s = .next t ∧ t.AfterReset ∧ t.pwrupDonePersist = false ∧ t.cfg = s.cfg ∧
      t.env.schedule = rest ∧ t.env.noise = s.env.noise ∧ t.env.draws = s.env.draws) ∧
  ∀ (s : State) (rest : List Event), s.env.schedule = .resume :: rest →
    ∃ t, step s = .next t ∧ t.AfterReset ∧ t.pwrupDonePersist = s.pwrupDonePersist ∧ t.cfg = s.cfg ∧
      t.env.schedule = rest ∧ t.env.noise = s.env.noise ∧ t.env.draws = s.env.draws

/-- R48 and the bounds of R10: the reset state holds what R48 states and meets every invariant stated below. The values of
`CMD`, `IN0..IN3` and `RES` in it are the model's choice (log 5), as are the parameters (log 2). -/
def Obligations.ResetMeetsInvariants : Prop :=
  State.reset.AfterReset ∧ State.reset.pwrupDonePersist = false ∧ State.reset.cfg.Lawful ∧
    State.reset.GateWellFormed ∧ State.reset.TrngWellFormed ∧ State.reset.ContextsWellFormed ∧
    State.reset.HardwareOwnerRight ∧ State.reset.DrbgsWellFormed ∧ State.reset.PortsWellFormed

/-! ## Invariants that every step keeps -/

/-- R35, R36, R37, R360, R394: the gate invariant. -/
def Obligations.StepKeepsGate : Prop :=
  ∀ s t : State, s.GateWellFormed → step s = .next t → t.GateWellFormed

/-- R44, R192, R193, R194, R195, R200, R401: the invariant of the TRNG record, with the latch equivalent to the TRNG bits. That
the run length passes the bound of R401 inside a failing word, and that the latch follows a `FIPS_THROW_ERR`, is read from the
rules (logs 11 and 12). -/
def Obligations.StepKeepsTrng : Prop :=
  ∀ s t : State, s.TrngWellFormed → step s = .next t → t.TrngWellFormed

/-- R40, R41, R155, R175: the invariant of the context file, with the key block cleared once a context is finalized. The
relation between pending bytes and count holds in the active phase (log 13). Model's choices: the digest storage of an active
context is empty (log 7), absent slots hold nothing (log 8). -/
def Obligations.StepKeepsContexts : Prop :=
  ∀ s t : State, s.ContextsWellFormed → step s = .next t → t.ContextsWellFormed

/-- R39, R40, R46, R85: at most one slot holds the hash hardware, and `SHA_HW_OWNER` names it, in the active phase (log 13). -/
def Obligations.StepKeepsHardwareOwner : Prop :=
  ∀ s t : State, s.HardwareOwnerRight → step s = .next t → t.HardwareOwnerRight

/-- R42, R220: the invariant of the DRBG file; the reseed counter never passes the sentinel. Absent slots are never live
(log 8). -/
def Obligations.StepKeepsDrbgs : Prop :=
  ∀ s t : State, s.cfg.Lawful → s.DrbgsWellFormed → step s = .next t → t.DrbgsWellFormed

/-- R31, R81, R84: every port stays within `MAX_BUF` and the engine lock is free after every step. -/
def Obligations.StepKeepsPorts : Prop :=
  ∀ s t : State, s.cfg.Lawful → s.ContextsWellFormed → s.PortsWellFormed → step s = .next t → t.PortsWellFormed

/-! ## Rules about all commands -/

/-- R377: within a power cycle `FIPS_STATUS` only gains bits, a gate that has closed stays closed, and only a successful
`FIPS_POWER_ON` opens it. -/
def Obligations.StatusOnlyGainsBits : Prop :=
  (∀ s t : State, CommandLeads s t → t.fipsStatus &&& s.fipsStatus = s.fipsStatus) ∧
  (∀ s t u : State, s.cryptoAllowed = true → CommandsLead s t → t.cryptoAllowed = false → CommandsLead t u →
    u.cryptoAllowed = false) ∧
  ∀ (s t : State) (w : Word) (a b c d : Bytes), (s.issue w a b c d).execute = .next t →
    s.cryptoAllowed = false → t.cryptoAllowed = true → decode w = .ok .fipsPowerOn ∧ t.res = 0

/-- R378, R392: with the gate closed a gated command answers `FAIL` with empty outputs and changes nothing else, but that
`HMAC_FINAL` clears the key block of an HMAC context (R174). -/
def Obligations.ClosedGateStopsCommands : Prop :=
  (∀ (i : Instr) (s : State), i.gated = true → (∀ slot, i ≠ .hmacFinal slot) → s.cryptoAllowed = false →
    s.engineBusy = false → exec i s = .next { s with out0 := [], out1 := [], res := 1 }) ∧
  (∀ (slot : BitVec 4) (s : State) (c : HashCtx) (okey : Bytes), s.cryptoAllowed = false → slot.toNat < s.cfg.nCtx →
    s.ctxAt slot = .hmac c okey → exec (.hmacFinal slot) s = .next { s with
      ctx := s.ctx.set slot.toNat (.hmac c (zeros c.alg.blockBytes)) slot.isLt, out0 := [], out1 := [], res := 1 }) ∧
  ∀ (slot : BitVec 4) (s : State), s.cryptoAllowed = false →
    (s.cfg.nCtx ≤ slot.toNat ∨ ∀ c okey, s.ctxAt slot ≠ .hmac c okey) →
    exec (.hmacFinal slot) s = .next { s with out0 := [], out1 := [], res := 1 }

/-- R31, R84, R95: no command changes `CMD`, a byte or the length of an input port, or the parameters, and none leaves the
engine lock taken. -/
def Obligations.CommandsLeaveInputs : Prop :=
  ∀ (i : Instr) (s t : State), exec i s = .next t →
    t.cmd = s.cmd ∧ t.cfg = s.cfg ∧ t.env.schedule = s.env.schedule ∧ t.env.resetCount = s.env.resetCount ∧
    (s.engineBusy = false → t.engineBusy = false) ∧
    ∀ (p : Port) (off : Nat), p ≠ .out0 → p ≠ .out1 →
      (t.port p).length = (s.port p).length ∧ t.readPortByte p off = s.readPortByte p off

/-- R31, R34, R390: which result kinds a command can end with, and that its outputs are empty where the kind is not `OK`. -/
def Obligations.ResultKindsOfCommands : Prop :=
  ∀ (i : Instr) (s t : State), exec i s = .next t →
    t.res.toNat < 4 ∧ (t.res ≠ 0 → t.out0 = [] ∧ t.out1 = []) ∧
    (t.res = 2 → i = .p256KeyFromBytes ∨ i = .ecdsaSignRaw) ∧
    (t.res = 3 → (∃ g n, i = .drbgGenerate g n) ∨ (∃ n, i = .randBytes n) ∨ ∃ g, i = .ecdsaSign g) ∧
    (i = .hwstat ∨ (∃ alg, i = .hashSize alg) ∨ (∃ alg, i = .hashBlockSize alg) ∨ i = .fipsStatus ∨
      (∃ mask, i = .fipsInject mask) → t.res = 0)

/-- R390, R393, R394: which error bits a command can add, and that adding one clears the persisted flag. -/
def Obligations.ErrorBitsOfCommands : Prop :=
  ∀ (i : Instr) (s t : State), exec i s = .next t →
    (t.fipsStatus &&& errorMask) &&& ~~~(s.fipsStatus ||| i.mayRaise) = 0 ∧
    (t.fipsStatus &&& errorMask ≠ s.fipsStatus &&& errorMask → t.pwrupDonePersist = false)

/-- R223, R156: a command changes no context slot and no DRBG slot but the one it names, and one that names no context slot
leaves `SHA_HW_OWNER` as it is. -/
def Obligations.OtherSlotsUnchanged : Prop :=
  ∀ (i : Instr) (s t : State), exec i s = .next t →
    (∀ j, i.ctxSlot ≠ some j → t.ctxAt j = s.ctxAt j) ∧ (∀ j, i.drbgSlot ≠ some j → t.drbgAt j = s.drbgAt j) ∧
    (i.ctxSlot = none → t.shaHwOwner = s.shaHwOwner)

/-- R89, R393, R254, R216: only six commands ask the noise source: the five that R89 names, and `ECDSA_SIGN` by its generate
calls (log 18). No other changes the TRNG record, but that the latch follows the bits of a `FIPS_THROW_ERR` (log 12).
R47, R244, R256, R282, R285, R289, R290, R292: only nine make other draws. -/
def Obligations.DrawsOfCommands : Prop :=
  ∀ (i : Instr) (s t : State), exec i s = .next t →
    (i.asksNoise = false → t.trng = { s.trng with failed := t.trng.failed } ∧
      ((∀ mask, i ≠ .fipsThrowErr mask) → t.trng.failed = s.trng.failed) ∧
      t.env.noise = s.env.noise ∧ t.env.noiseCount = s.env.noiseCount) ∧
    (i.makesDraws = false → t.env.draws = s.env.draws ∧ t.env.drawCount = s.env.drawCount)

/-! ## SYS -/

/-- R350: `EQUALS` answers `OK` exactly when both ports hold the same `len` bytes, wherever they differ. -/
def Obligations.EqualsComparesAllBytes : Prop :=
  ∀ (s : State) (len : BitVec 16), exec (.equals len) s = .next { s with
    out0 := [], out1 := [], res := if s.in0.length = len.toNat ∧ s.in0 = s.in1 then 0 else 1 }

/-- R351: the encoding of `HWSTAT` and its word, byte by byte, with any gate. -/
def Obligations.HwstatReadsFlags : Prop :=
  decode 0x01000000 = .ok .hwstat ∧ ∀ s : State, exec .hwstat s = .next { s with
    out0 := [match s.shaHwOwner with
        | none => 0
        | some owner => 0x01 ||| (owner.setWidth 8 <<< 4),
      if s.engineBusy then 0x01 else 0, 0, 0],
    out1 := [], res := 0 }

/-! ## HASH and HMAC -/

/-- R150, R172, R85: `HASH_INIT` makes a fresh context, `HMAC_INIT` one that keeps the key block and has absorbed the
inner-padded one; both take the hash hardware where the path selector says so, and with the hardware held by another slot
selector `HW` fails and changes nothing. An absent slot and an unsupported hash tag fail. The digest storage of a new context
is empty by the model's choice (log 7). -/
def Obligations.InitsMakeContexts : Prop :=
  ((∀ (s : State) (alg i : BitVec 4) (path : BitVec 2) (a : HashAlg),
    s.cryptoAllowed = true → i.toNat < s.cfg.nCtx → hashOfTag alg = some a → path ≠ 3 →
    (path = 2 → s.shaHwOwner = none ∨ s.shaHwOwner = some i) →
    let takes : Bool := path ≠ 1 ∧ (s.shaHwOwner = none ∨ s.shaHwOwner = some i)
    exec (.hashInit alg i path) s = .next { s with
      shaHwOwner := if takes then some i else if s.shaHwOwner = some i then none else s.shaHwOwner,
      ctx := s.ctx.set i.toNat (.hash {
        alg := a, h := a.iv, count := 0, buf := [], phase := .active, digest := [],
        path := if takes then .hw else .sw }) i.isLt,
      out0 := [], out1 := [], res := 0 }) ∧
  ∀ (s : State) (alg i j : BitVec 4), s.shaHwOwner = some j → j ≠ i →
    exec (.hashInit alg i 2) s = .next { s with out0 := [], out1 := [], res := 1 }) ∧
  (∀ (s : State) (alg i : BitVec 4) (path : BitVec 2) (a : HashAlg),
    s.cryptoAllowed = true → i.toNat < s.cfg.nCtx → hashOfTag alg = some a → path ≠ 3 →
    (path = 2 → s.shaHwOwner = none ∨ s.shaHwOwner = some i) →
    let takes : Bool := path ≠ 1 ∧ (s.shaHwOwner = none ∨ s.shaHwOwner = some i)
    exec (.hmacInit alg i path) s = .next { s with
      shaHwOwner := if takes then some i else if s.shaHwOwner = some i then none else s.shaHwOwner,
      ctx := s.ctx.set i.toNat (.hmac {
        alg := a, h := compress a.iv ((hmacKeyBlock a s.in0).map (· ^^^ 0x36)), count := a.blockBytes, buf := [],
        phase := .active, digest := [], path := if takes then .hw else .sw } (hmacKeyBlock a s.in0)) i.isLt,
      out0 := [], out1 := [], res := 0 }) ∧
  (∀ (s : State) (alg i j : BitVec 4), s.shaHwOwner = some j → j ≠ i →
    exec (.hmacInit alg i 2) s = .next { s with out0 := [], out1 := [], res := 1 }) ∧
  ∀ (s : State) (alg i : BitVec 4) (path : BitVec 2), (s.cfg.nCtx ≤ i.toNat ∨ alg = 0 ∨ 5 < alg.toNat) →
    exec (.hashInit alg i path) s = .next { s with out0 := [], out1 := [], res := 1 } ∧
    exec (.hmacInit alg i path) s = .next { s with out0 := [], out1 := [], res := 1 }

/-- R151, R155, R173: `HASH_UPDATE` and `HMAC_UPDATE` compress the full blocks of the pending bytes followed by `IN0`, in
order, and keep the remainder. -/
def Obligations.UpdatesAbsorbInput : Prop :=
  ∀ (s : State) (i : BitVec 4) (c : HashCtx),
    s.cryptoAllowed = true → i.toNat < s.cfg.nCtx → c.phase = .active → c.count + s.in0.length < 2 ^ 61 →
    ∃ (blocks : List Bytes) (rest : Bytes),
      c.buf ++ s.in0 = blocks.flatten ++ rest ∧ (∀ b ∈ blocks, b.length = c.alg.blockBytes) ∧
      rest.length < c.alg.blockBytes ∧
      let c' := { c with h := blocks.foldl compress c.h, buf := rest, count := c.count + s.in0.length }
      (s.ctxAt i = .hash c → exec (.hashUpdate i) s = .next { s with
        ctx := s.ctx.set i.toNat (.hash c') i.isLt, out0 := [], out1 := [], res := 0 }) ∧
      ∀ okey, s.ctxAt i = .hmac c okey → exec (.hmacUpdate i) s = .next { s with
        ctx := s.ctx.set i.toNat (.hmac c' okey) i.isLt, out0 := [], out1 := [], res := 0 }

/-- R49, R151, R152, R155, R173, R174, R431: the `FAIL`s of the context commands with an open gate, which change nothing: a
slot of the other kind or of none, an update after `FINAL`, an update that would reach 2^61 bytes, a slot that is absent. -/
def Obligations.DeadContextsFail : Prop :=
  (∀ (s : State) (i : BitVec 4), s.cryptoAllowed = true →
    (s.cfg.nCtx ≤ i.toNat ∨ (∀ c, s.ctxAt i ≠ .hash c) ∨
      ∃ c, s.ctxAt i = .hash c ∧ (c.phase = .finalized ∨ 2 ^ 61 ≤ c.count + s.in0.length)) →
    exec (.hashUpdate i) s = .next { s with out0 := [], out1 := [], res := 1 }) ∧
  (∀ (s : State) (i : BitVec 4), s.cryptoAllowed = true →
    (s.cfg.nCtx ≤ i.toNat ∨ (∀ c okey, s.ctxAt i ≠ .hmac c okey) ∨
      ∃ c okey, s.ctxAt i = .hmac c okey ∧ (c.phase = .finalized ∨ 2 ^ 61 ≤ c.count + s.in0.length)) →
    exec (.hmacUpdate i) s = .next { s with out0 := [], out1 := [], res := 1 }) ∧
  ∀ (s : State) (i : BitVec 4), s.cryptoAllowed = true →
    (s.cfg.nCtx ≤ i.toNat ∨ (∀ c, s.ctxAt i ≠ .hash c) →
      exec (.hashFinal i) s = .next { s with out0 := [], out1 := [], res := 1 }) ∧
    (s.cfg.nCtx ≤ i.toNat ∨ (∀ c okey, s.ctxAt i ≠ .hmac c okey) →
      exec (.hmacFinal i) s = .next { s with out0 := [], out1 := [], res := 1 })

/-- R152, R174: `HASH_FINAL` on an active context pads with the count, stores and answers the digest; `HMAC_FINAL` answers the
outer hash over the inner digest and clears the key block; both release the hardware of their own context. On a finalized
context they answer what is stored and change nothing. -/
def Obligations.FinalsAnswerDigests : Prop :=
  ((∀ (s : State) (i : BitVec 4) (c : HashCtx),
    s.cryptoAllowed = true → i.toNat < s.cfg.nCtx → s.ctxAt i = .hash c → c.phase = .active →
    let words := (chunks c.alg.blockBytes (c.buf ++ hashPadding c.alg c.count)).foldl compress c.h
    let digest := words.bytes.take c.alg.digestBytes
    exec (.hashFinal i) s = .next { s with
      shaHwOwner := if c.path = .hw then none else s.shaHwOwner,
      ctx := s.ctx.set i.toNat (.hash { c with h := words, buf := [], phase := .finalized, digest := digest }) i.isLt,
      out0 := digest, out1 := [], res := 0 }) ∧
  ∀ (s : State) (i : BitVec 4) (c : HashCtx),
    s.cryptoAllowed = true → i.toNat < s.cfg.nCtx → s.ctxAt i = .hash c → c.phase = .finalized →
    exec (.hashFinal i) s = .next { s with out0 := c.digest, out1 := [], res := 0 }) ∧
  (∀ (s : State) (i : BitVec 4) (c : HashCtx) (okey : Bytes),
    s.cryptoAllowed = true → i.toNat < s.cfg.nCtx → s.ctxAt i = .hmac c okey → c.phase = .active →
    let words := (chunks c.alg.blockBytes (c.buf ++ hashPadding c.alg c.count)).foldl compress c.h
    let tag := hash c.alg (okey.map (· ^^^ 0x5c) ++ words.bytes.take c.alg.digestBytes)
    exec (.hmacFinal i) s = .next { s with
      shaHwOwner := if c.path = .hw then none else s.shaHwOwner,
      ctx := s.ctx.set i.toNat (.hmac { c with h := words, buf := [], phase := .finalized, digest := tag }
        (zeros c.alg.blockBytes)) i.isLt,
      out0 := tag, out1 := [], res := 0 }) ∧
  ∀ (s : State) (i : BitVec 4) (c : HashCtx) (okey : Bytes),
    s.cryptoAllowed = true → i.toNat < s.cfg.nCtx → s.ctxAt i = .hmac c okey → c.phase = .finalized →
    exec (.hmacFinal i) s = .next { s with out0 := c.digest, out1 := [], res := 0 }

/-- R153, R154: the sizes that the two queries answer for all sixteen tags, as little-endian words, with any gate. -/
def Obligations.HashSizesAnswered : Prop :=
  ∀ (s : State) (alg : BitVec 4),
    decode (0x13#8 ++ alg ++ 0#4 ++ 0#16) = .ok (.hashSize alg) ∧
    exec (.hashSize alg) s = .next { s with
      out0 := [([0, 20, 28, 32, 48, 64] : List Byte).getD alg.toNat 0, 0, 0, 0], out1 := [], res := 0 } ∧
    decode (0x14#8 ++ alg ++ 0#4 ++ 0#16) = .ok (.hashBlockSize alg) ∧
    exec (.hashBlockSize alg) s = .next { s with
      out0 := [([0, 64, 64, 64, 128, 128] : List Byte).getD alg.toNat 0, 0, 0, 0], out1 := [], res := 0 }

/-- R148, R149: for every split of a message into updates and on every path, the digest is `Hash(alg, M)`. -/
def Obligations.StreamedHashIsHash : Prop :=
  ∀ (s : State) (alg i : BitVec 4) (path : BitVec 2) (a : HashAlg) (ms : List Bytes),
    s.cryptoAllowed = true → i.toNat < s.cfg.nCtx → hashOfTag alg = some a → path ≠ 3 →
    (path = 2 → s.shaHwOwner = none ∨ s.shaHwOwner = some i) → ms.flatten.length < 2 ^ 61 →
    ∃ t u v, exec (.hashInit alg i path) s = .next t ∧ t.res = 0 ∧
      State.afterUpdates (.hashUpdate i) ms t = some u ∧
      exec (.hashFinal i) u = .next v ∧ v.res = 0 ∧ v.out0 = hash a ms.flatten

/-- R174, R171: for every split of a message into updates and on every path, the tag is `HMAC(alg, key, M)`, and the key
block is gone afterwards. -/
def Obligations.StreamedHmacIsHmac : Prop :=
  ∀ (s : State) (alg i : BitVec 4) (path : BitVec 2) (a : HashAlg) (ms : List Bytes),
    s.cryptoAllowed = true → i.toNat < s.cfg.nCtx → hashOfTag alg = some a → path ≠ 3 →
    (path = 2 → s.shaHwOwner = none ∨ s.shaHwOwner = some i) → a.blockBytes + ms.flatten.length < 2 ^ 61 →
    ∃ t u v, exec (.hmacInit alg i path) s = .next t ∧ t.res = 0 ∧
      State.afterUpdates (.hmacUpdate i) ms t = some u ∧
      exec (.hmacFinal i) u = .next v ∧ v.res = 0 ∧ v.out0 = hmac a s.in0 ms.flatten ∧
      ∃ c, v.ctxAt i = .hmac c (zeros a.blockBytes)

/-- R170: the key block, for a key longer than a block and for one that is not; a key of one block is used as it is, and
the empty key gives zeros. -/
def Obligations.KeyBlockIsOneBlock : Prop :=
  ∀ (a : HashAlg) (key : Bytes),
    (a.blockBytes < key.length → hmacKeyBlock a key = hash a key ++ zeros (a.blockBytes - a.digestBytes)) ∧
    (key.length ≤ a.blockBytes → hmacKeyBlock a key = key ++ zeros (a.blockBytes - key.length)) ∧
    (key.length = a.blockBytes → hmacKeyBlock a key = key) ∧ hmacKeyBlock a [] = zeros a.blockBytes ∧
    (hmacKeyBlock a key).length = a.blockBytes

/-- R176: `HKDF` answers the first `L` bytes of `T(1) ‖ T(2) ‖ ...`, all `L` of them, up to the largest legal length. -/
def Obligations.HkdfAnswersKeyMaterial : Prop :=
  (∀ (s : State) (len : BitVec 16), s.cryptoAllowed = true → len.toNat ≤ 8160 → len.toNat ≤ s.cfg.maxBuf →
    let prk := hmac .sha256 s.in0 s.in1
    ∃ okm : Bytes, exec (.hkdf 3 len) s = .next { s with out0 := okm, out1 := [], res := 0 } ∧
      okm.length = len.toNat ∧
      okm = ((List.range ((len.toNat + 31) / 32)).flatMap fun j => hkdfBlock prk s.in2 (j + 1)).take len.toNat) ∧
  ∀ (s : State) (alg : BitVec 4) (len : BitVec 16), (alg ≠ 3 ∨ 8160 < len.toNat ∨ s.cfg.maxBuf < len.toNat) →
    exec (.hkdf alg len) s = .next { s with out0 := [], out1 := [], res := 1 }

/-! ## TRNG -/

/-- R190 to R197, R394: `TRNG_STARTUP` passes on 128 words without a run of 52 equal samples and with every window of 1024 in
proportion; the source is healthy afterwards, with the last run of the stream in its run counter. On any other 128 words, and
with a TRNG injection, it fails, latches the failure and closes the gate. With an error bit set or the latch it fails at once.
The words come from the model's list of answers of the noise source (log 3). -/
def Obligations.TrngStartupJudgesNoise : Prop :=
  (∀ (s : State) (ws rest : List Word),
    s.hasError = false → s.trng.failed = false → s.fipsInject &&& 0x6 = 0 → s.env.noise = ws ++ rest →
    ws.length = 128 → NoLongRun (sampleStream ws) → WindowsFair ws →
    let run := (Trng.afterReset.runTest (sampleStream ws)).1
    exec .trngStartup s = .next { s with
      trng := { runBit := run.runBit, runLen := run.runLen, window := ws.drop 96, healthy := true, failed := false },
      env := { s.env with noise := rest, noiseCount := s.env.noiseCount + 128 },
      out0 := [], out1 := [], res := 0 }) ∧
  (∀ (s : State) (ws rest : List Word),
    s.hasError = false → s.trng.failed = false → s.env.noise = ws ++ rest → ws.length = 128 →
    (¬ (NoLongRun (sampleStream ws) ∧ WindowsFair ws) ∨ s.fipsInject &&& 0x6 ≠ 0) →
    ∃ t, exec .trngStartup s = .next t ∧ s.LeftByBadStartup t ∧ t.cryptoAllowed = false) ∧
  ∀ s : State, (s.hasError = true ∨ s.trng.failed = true) →
    exec .trngStartup s = .next { s with out0 := [], out1 := [], res := 1 }

/-- R198, R194: `TRNG_WORD` delivers a word that passes both tests, and a word that fails one is fatal and not delivered. -/
def Obligations.TrngWordDelivers : Prop :=
  ∀ (s : State) (w : Word),
    s.cryptoAllowed = true → s.trng.healthy = true → s.trng.failed = false → s.env.nextNoise = w →
    let run := s.trng.runTest (samplesOf w)
    let window := slideWindow s.trng.window w
    let rct : Bool := run.2 ∨ s.fipsInject.getLsbD 1
    let apt : Bool := proportionFails window ∨ s.fipsInject.getLsbD 2
    (rct = false → apt = false → exec .trngWord s = .next { s with
      trng := { run.1 with window := window }, env := s.env.afterNoise,
      out0 := [w.extractLsb' 0 8, w.extractLsb' 8 8, w.extractLsb' 16 8, w.extractLsb' 24 8], out1 := [], res := 0 }) ∧
    (rct = true ∨ apt = true → exec .trngWord s = .next { s with
      trng := { run.1 with window := window, healthy := false, failed := true }, env := s.env.afterNoise,
      fipsStatus := s.fipsStatus ||| (if rct then 0x2 else 0) ||| (if apt then 0x4 else 0),
      pwrupDonePersist := false, out0 := [], out1 := [], res := 1 })

/-! ## DRBG -/

/-- R211, R212: the steps of `Update`, and the state it starts from at instantiation. -/
def Obligations.DrbgUpdateSteps : Prop :=
  (∀ (d : Drbg) (pd : Bytes),
    let k1 := hmac .sha256 d.k (d.v ++ [0x00] ++ pd)
    let v1 := hmac .sha256 k1 d.v
    let k2 := hmac .sha256 k1 (v1 ++ [0x01] ++ pd)
    (d.update pd = if pd = [] then { d with k := k1, v := v1 } else { d with k := k2, v := hmac .sha256 k2 v1 }) ∧
    (d.update pd).k.length = 32 ∧ (d.update pd).v.length = 32) ∧
  ∀ (seed : Bytes) (threshold : Word),
    Drbg.instantiate seed threshold = ({
      k := List.replicate 32 0x00, v := List.replicate 32 0x01, reseedCounter := 1,
      reseedThreshold := threshold, cookie := .valid } : Drbg).update seed

/-- R213, R214, R218, R219: the commands that write a DRBG slot, and their `FAIL`s, which change nothing: an absent slot, a
threshold that is no word, a dead instance, a scalar or digest that is not 32 bytes. `DRBG_EXIT` works with any gate. -/
def Obligations.DrbgSlotCommands : Prop :=
  (∀ (s : State) (i : BitVec 4) (threshold : Word), s.cryptoAllowed = true → i.toNat < s.cfg.nDrbg →
    s.in3 = [threshold.extractLsb' 0 8, threshold.extractLsb' 8 8, threshold.extractLsb' 16 8,
      threshold.extractLsb' 24 8] →
    exec (.drbgInit i) s = .next { s with
      drbg := s.drbg.set i.toNat (Drbg.instantiate (s.in0 ++ s.in1 ++ s.in2) threshold) i.isLt,
      out0 := [], out1 := [], res := 0 }) ∧
  (∀ (s : State) (i : BitVec 4), s.cryptoAllowed = true → i.toNat < s.cfg.nDrbg → (s.drbgAt i).cookie = .valid →
    exec (.drbgReseed i) s = .next { s with
      drbg := s.drbg.set i.toNat { (s.drbgAt i).update (s.in0 ++ s.in1) with reseedCounter := 1 } i.isLt,
      out0 := [], out1 := [], res := 0 }) ∧
  (∀ (s : State) (i : BitVec 4), s.cryptoAllowed = true → i.toNat < s.cfg.nDrbg →
    s.in0.length = 32 → s.in1.length = 32 →
    exec (.drbgInitRfc6979 i) s = .next { s with
      drbg := s.drbg.set i.toNat (Drbg.instantiate (s.in0 ++ s.in1) s.cfg.noAutoReseed) i.isLt,
      out0 := [], out1 := [], res := 0 }) ∧
  (∀ (s : State) (i : BitVec 4), s.cryptoAllowed = true →
    (s.cfg.nDrbg ≤ i.toNat ∨ s.in3.length ≠ 4 →
      exec (.drbgInit i) s = .next { s with out0 := [], out1 := [], res := 1 }) ∧
    (s.cfg.nDrbg ≤ i.toNat ∨ (s.drbgAt i).cookie = .invalid →
      exec (.drbgReseed i) s = .next { s with out0 := [], out1 := [], res := 1 }) ∧
    (s.cfg.nDrbg ≤ i.toNat ∨ s.in0.length ≠ 32 ∨ s.in1.length ≠ 32 →
      exec (.drbgInitRfc6979 i) s = .next { s with out0 := [], out1 := [], res := 1 })) ∧
  ∀ (s : State) (i : BitVec 4),
    (i.toNat < s.cfg.nDrbg → exec (.drbgExit i) s = .next { s with
      drbg := s.drbg.set i.toNat {
        k := List.replicate 32 0, v := List.replicate 32 0, reseedCounter := 0,
        reseedThreshold := 0, cookie := .invalid } i.isLt,
      out0 := [], out1 := [], res := 0 }) ∧
    (s.cfg.nDrbg ≤ i.toNat → exec (.drbgExit i) s = .next { s with out0 := [], out1 := [], res := 1 })

/-- R215, R216, R49, R395: `DRBG_GENERATE` without auto-reseed: the additional input goes in before and after, the output is the
concatenation of the successive `V`, and the counter goes up by 1; the refusals, an absent slot first, come in the order of
the rule and change nothing. -/
def Obligations.DrbgGenerateAnswers : Prop :=
  (∀ (s : State) (i : BitVec 4) (n : BitVec 16),
    s.cryptoAllowed = true → i.toNat < s.cfg.nDrbg → (s.drbgAt i).cookie = .valid → n.toNat ≤ 937 →
    (s.drbgAt i).reseedCounter ≠ s.cfg.noAutoReseed →
    (s.drbgAt i).reseedCounter.toNat ≤ (s.drbgAt i).reseedThreshold.toNat →
    let d := if s.in0 = [] then s.drbgAt i else (s.drbgAt i).update s.in0
    let v := fun j => (hmac .sha256 d.k)^[j] d.v
    let m := (n.toNat + 31) / 32
    let out := ((List.range m).flatMap fun j => v (j + 1)).take n.toNat
    out.length = n.toNat ∧
    exec (.drbgGenerate i n) s = .next { s with
      drbg := s.drbg.set i.toNat { ({ d with v := v m } : Drbg).update s.in0 with
        reseedCounter := (s.drbgAt i).reseedCounter + 1 } i.isLt,
      out0 := out, out1 := [], res := 0 }) ∧
  ∀ (s : State) (i : BitVec 4) (n : BitVec 16), s.cryptoAllowed = true →
    (s.cfg.nDrbg ≤ i.toNat ∨ (s.drbgAt i).cookie = .invalid ∨ 937 < n.toNat →
      exec (.drbgGenerate i n) s = .next { s with out0 := [], out1 := [], res := 1 }) ∧
    (i.toNat < s.cfg.nDrbg → (s.drbgAt i).cookie = .valid → n.toNat ≤ 937 →
      (s.drbgAt i).reseedCounter = s.cfg.noAutoReseed →
      exec (.drbgGenerate i n) s = .next { s with out0 := [], out1 := [], res := 3 })

/-- R213, R216, R217: an auto-reseeding `DRBG_GENERATE` drops `IN0`; it answers by the formulas of R216 from the instance reseeded
with the TRNG's bytes, for every threshold below the counter, 0 among them. With a threshold of at least 1 it equals an explicit
`DRBG_RESEED` with the same entropy followed by a `DRBG_GENERATE` with empty `IN0` (with 0 that generate would reseed once
more). Where the TRNG fails it fails and leaves the instance as it was. -/
def Obligations.AutoReseedIsReseed : Prop :=
  (∀ (s s1 : State) (i : BitVec 4) (n : BitVec 16) (e : Bytes),
    s.cryptoAllowed = true → s.cfg.Lawful → i.toNat < s.cfg.nDrbg → (s.drbgAt i).cookie = .valid → n.toNat ≤ 937 →
    (s.drbgAt i).reseedCounter ≠ s.cfg.noAutoReseed → 1 ≤ (s.drbgAt i).reseedThreshold.toNat →
    (s.drbgAt i).reseedThreshold.toNat < (s.drbgAt i).reseedCounter.toNat →
    s.trngBytes s.cfg.entropyBytes = (some e, s1) →
    ∃ t u v, exec (.drbgGenerate i n) s = .next t ∧
      exec (.drbgReseed i) { s1 with in0 := e, in1 := [] } = .next u ∧ u.res = 0 ∧
      exec (.drbgGenerate i n) { u with in0 := [] } = .next v ∧
      t.res = 0 ∧ v.res = 0 ∧ t.out0 = v.out0 ∧ t.drbg = v.drbg ∧ t.env = v.env ∧ t.trng = v.trng) ∧
  (∀ (s s1 : State) (i : BitVec 4) (n : BitVec 16) (e : Bytes),
    s.cryptoAllowed = true → i.toNat < s.cfg.nDrbg → (s.drbgAt i).cookie = .valid → n.toNat ≤ 937 →
    (s.drbgAt i).reseedCounter ≠ s.cfg.noAutoReseed →
    (s.drbgAt i).reseedThreshold.toNat < (s.drbgAt i).reseedCounter.toNat →
    s.trngBytes s.cfg.entropyBytes = (some e, s1) →
    let d := (s.drbgAt i).update e
    let v := fun j => (hmac .sha256 d.k)^[j] d.v
    let m := (n.toNat + 31) / 32
    let out := ((List.range m).flatMap fun j => v (j + 1)).take n.toNat
    out.length = n.toNat ∧
    exec (.drbgGenerate i n) s = .next { s1 with
      drbg := s.drbg.set i.toNat { ({ d with v := v m } : Drbg).update [] with reseedCounter := 2 } i.isLt,
      out0 := out, out1 := [], res := 0 }) ∧
  ∀ (s s1 : State) (i : BitVec 4) (n : BitVec 16),
    s.cryptoAllowed = true → i.toNat < s.cfg.nDrbg → (s.drbgAt i).cookie = .valid → n.toNat ≤ 937 →
    (s.drbgAt i).reseedCounter ≠ s.cfg.noAutoReseed →
    (s.drbgAt i).reseedThreshold.toNat < (s.drbgAt i).reseedCounter.toNat →
    s.trngBytes s.cfg.entropyBytes = (none, s1) →
    ∃ t, exec (.drbgGenerate i n) s = .next t ∧ t.res = 1 ∧ t.out0 = [] ∧ t.drbg = s.drbg

/-- R222: `RAND_BYTES` is one generate call on slot 0 for each piece of at most 937 bytes, with empty additional input: the
outputs are joined, and a call that is not `OK` ends the command with its code and empty outputs and keeps the advances already
made. A singleton that is not live is first instantiated from the TRNG, whose failure is a `FAIL`. Without an auto-reseed in it
the pieces count one by one, and a single piece is what `DRBG_GENERATE g0` answers. -/
def Obligations.RandBytesAnswers : Prop :=
  (∀ (s : State) (n : BitVec 16),
    s.cryptoAllowed = true → n.toNat ≤ s.cfg.maxBuf → (s.drbgAt 0).cookie = .valid →
    let all := s.generateAll (randPieces n.toNat)
    exec (.randBytes n) s = .next { all.2.2 with out0 := all.2.1, out1 := [], res := all.1.code }) ∧
  (∀ (s s1 s2 : State) (n : BitVec 16) (e m : Bytes),
    s.cryptoAllowed = true → n.toNat ≤ s.cfg.maxBuf → (s.drbgAt 0).cookie = .invalid →
    s.trngBytes s.cfg.entropyBytes = (some e, s1) → s1.trngBytes s.cfg.nonceBytes = (some m, s2) →
    let all := ({ s2 with
      drbg := s.drbg.set 0 (Drbg.instantiate (e ++ m) s.cfg.defaultThreshold) } : State).generateAll (randPieces n.toNat)
    exec (.randBytes n) s = .next { all.2.2 with out0 := all.2.1, out1 := [], res := all.1.code }) ∧
  (∀ (s s1 s2 : State) (n : BitVec 16) (e : Bytes),
    s.cryptoAllowed = true → n.toNat ≤ s.cfg.maxBuf → (s.drbgAt 0).cookie = .invalid →
    (s.trngBytes s.cfg.entropyBytes = (none, s2) ∨
      s.trngBytes s.cfg.entropyBytes = (some e, s1) ∧ s1.trngBytes s.cfg.nonceBytes = (none, s2)) →
    exec (.randBytes n) s = .next { s2 with out0 := [], out1 := [], res := 1 }) ∧
  (∀ (s : State) (n : BitVec 16), s.cryptoAllowed = true → s.cfg.maxBuf < n.toNat →
    exec (.randBytes n) s = .next { s with out0 := [], out1 := [], res := 1 }) ∧
  ∀ (s : State) (n : Nat), (s.drbgAt 0).cookie = .valid →
    (s.drbgAt 0).reseedCounter.toNat + (n + 936) / 937 ≤ (s.drbgAt 0).reseedThreshold.toNat + 1 →
    (s.drbgAt 0).reseedCounter.toNat + (n + 936) / 937 ≤ s.cfg.noAutoReseed.toNat →
    let all := s.generateAll (randPieces n)
    let d := all.2.2.drbgAt 0
    all.1 = .ok ∧ all.2.1.length = n ∧ all.2.2 = { s with drbg := s.drbg.set 0 d } ∧ d.cookie = .valid ∧
      d.reseedThreshold = (s.drbgAt 0).reseedThreshold ∧
      d.reseedCounter.toNat = (s.drbgAt 0).reseedCounter.toNat + (n + 936) / 937 ∧
      (s.cryptoAllowed = true → 0 < s.cfg.nDrbg → 0 < n → n ≤ 937 →
        exec (.drbgGenerate 0 (BitVec.ofNat 16 n)) { s with in0 := [] } = .next { s with
          in0 := [], drbg := s.drbg.set 0 d, out0 := all.2.1, out1 := [], res := 0 })

/-! ## AES -/

/-- R320, R325, R326, R331: the one-block commands and the MAC, for the three key sizes; the prologue of all six commands
refuses another key size or a key of another length, and the one-block commands refuse other data than one block. -/
def Obligations.AesBlockCommands : Prop :=
  (∀ (s : State) (keysize : BitVec 4), s.cryptoAllowed = true →
    (2 < keysize.toNat ∨ s.in0.length ≠ 16 + 8 * keysize.toNat) →
    FailsUnlocked (.aesEcbEnc keysize) s ∧ FailsUnlocked (.aesEcbDec keysize) s ∧ FailsUnlocked (.aesCtr keysize) s ∧
      FailsUnlocked (.aesCbcEnc keysize) s ∧ FailsUnlocked (.aesCbcDec keysize) s ∧ FailsUnlocked (.aesCmac keysize) s) ∧
  (∀ (s : State) (keysize : BitVec 4), s.cryptoAllowed = true → s.in2.length ≠ 16 →
    FailsUnlocked (.aesEcbEnc keysize) s ∧ FailsUnlocked (.aesEcbDec keysize) s) ∧
  ∀ (s : State) (keysize : BitVec 4),
    s.cryptoAllowed = true → keysize.toNat ≤ 2 → s.in0.length = 16 + 8 * keysize.toNat →
    (s.in2.length = 16 → exec (.aesEcbEnc keysize) s = .next { s with
      engineBusy := false, out0 := aesE s.in0 s.in2, out1 := [], res := 0 }) ∧
    (s.in2.length = 16 → exec (.aesEcbDec keysize) s = .next { s with
      engineBusy := false, out0 := aesD s.in0 s.in2, out1 := [], res := 0 }) ∧
    exec (.aesCmac keysize) s = .next { s with
      engineBusy := false, out0 := aesCmac s.in0 s.in2, out1 := [], res := 0 }

/-- R327: byte `j` of the output of `AES_CTR` is byte `j` of the data xored with byte `j mod 16` of the encrypted counter
block `IV + j/16`, the counter wrapping at 2^128; an IV that is not 16 bytes fails. -/
def Obligations.AesCtrKeystream : Prop :=
  (∀ (s : State) (keysize : BitVec 4), s.cryptoAllowed = true → s.in1.length ≠ 16 → FailsUnlocked (.aesCtr keysize) s) ∧
  ∀ (s : State) (keysize : BitVec 4),
    s.cryptoAllowed = true → keysize.toNat ≤ 2 → s.in0.length = 16 + 8 * keysize.toNat → s.in1.length = 16 →
    ∃ out : Bytes, exec (.aesCtr keysize) s = .next { s with
        engineBusy := false, out0 := out, out1 := [], res := 0 } ∧
      out.length = s.in2.length ∧
      ∀ j, j < s.in2.length → out.getD j 0 =
        s.in2.getD j 0 ^^^ (aesE s.in0 (toBE ((be s.in1 + j / 16) % 2 ^ 128) 16)).getD (j % 16) 0

/-- R328, R329: the chaining of the two CBC commands, block by block, and the next IV in `OUT1`; an IV that is not 16 bytes and
data that is no whole number of blocks fail. -/
def Obligations.AesCbcChains : Prop :=
  (∀ (s : State) (keysize : BitVec 4), s.cryptoAllowed = true → (s.in1.length ≠ 16 ∨ s.in2.length % 16 ≠ 0) →
    FailsUnlocked (.aesCbcEnc keysize) s ∧ FailsUnlocked (.aesCbcDec keysize) s) ∧
  ∀ (s : State) (keysize : BitVec 4),
    s.cryptoAllowed = true → keysize.toNat ≤ 2 → s.in0.length = 16 + 8 * keysize.toNat → s.in1.length = 16 →
    s.in2.length % 16 = 0 →
    (∃ out : Bytes, exec (.aesCbcEnc keysize) s = .next { s with
        engineBusy := false, out0 := out,
        out1 := if s.in2 = [] then s.in1 else blockAt out (s.in2.length / 16 - 1), res := 0 } ∧
      out.length = s.in2.length ∧
      ∀ j, j < s.in2.length / 16 → blockAt out j =
        aesE s.in0 (xorBytes (blockAt s.in2 j) (if j = 0 then s.in1 else blockAt out (j - 1)))) ∧
    ∃ out : Bytes, exec (.aesCbcDec keysize) s = .next { s with
        engineBusy := false, out0 := out,
        out1 := if s.in2 = [] then s.in1 else blockAt s.in2 (s.in2.length / 16 - 1), res := 0 } ∧
      out.length = s.in2.length ∧
      ∀ j, j < s.in2.length / 16 → blockAt out j =
        xorBytes (aesD s.in0 (blockAt s.in2 j)) (if j = 0 then s.in1 else blockAt s.in2 (j - 1))

/-- R324, R332: decryption undoes encryption, for the block, CBC and CTR commands. -/
def Obligations.AesCommandsInvert : Prop :=
  ∀ (s : State) (keysize : BitVec 4),
    s.cryptoAllowed = true → keysize.toNat ≤ 2 → s.in0.length = 16 + 8 * keysize.toNat →
    (s.in2.length = 16 → ∃ t u, exec (.aesEcbEnc keysize) s = .next t ∧
      exec (.aesEcbDec keysize) { t with in2 := t.out0 } = .next u ∧ t.res = 0 ∧ u.res = 0 ∧ u.out0 = s.in2) ∧
    (s.in1.length = 16 → s.in2.length % 16 = 0 → ∃ t u, exec (.aesCbcEnc keysize) s = .next t ∧
      exec (.aesCbcDec keysize) { t with in2 := t.out0 } = .next u ∧ t.res = 0 ∧ u.res = 0 ∧ u.out0 = s.in2 ∧
      u.out1 = t.out1) ∧
    (s.in1.length = 16 → ∃ t u, exec (.aesCtr keysize) s = .next t ∧
      exec (.aesCtr keysize) { t with in2 := t.out0 } = .next u ∧ t.res = 0 ∧ u.res = 0 ∧ u.out0 = s.in2)

/-! ## RSA -/

/-- R281, R13: the exponentiation is the power, and `inv` is the inverse where one exists. -/
def Obligations.BignumFunctionsRight : Prop :=
  (∀ x k n : Nat, 3 ≤ n → modexp x k n = x ^ k % n) ∧
  ∀ a m : Nat, 1 < m → Nat.gcd a m = 1 → invMod a m < m ∧ a * invMod a m % m = 1

/-- R282, R283, R284: `MODEXP_PUB` answers the power; `MODEXP_BLINDED` answers `x^d * r^(e*d) * r^(-1) mod N` for the drawn
blinder `r`, whatever the mask; for a consistent key this is `x^d mod N` whatever the blinder. A blinder that is not
invertible gives `FAIL`, as do a bad key (R280, R300), operands of another length and an input that is not below the modulus. That
the blinder is drawn before the mask, and never 0, is the model's reading (log 4). -/
def Obligations.ModexpCommandsAnswer : Prop :=
  (∀ s : State, s.cryptoAllowed = true →
    (¬ KeyOk 512 s.in2 s.in3 (le s.in2) ∨ s.in0.length ≠ s.in2.length ∨ le s.in2 ≤ le s.in0 →
      FailsUnlocked .modexpPub s ∧ FailsUnlocked .modexpBlinded s) ∧
    (s.in1.length ≠ s.in2.length → FailsUnlocked .modexpBlinded s)) ∧
  (∀ s : State, s.cryptoAllowed = true → KeyOk 512 s.in2 s.in3 (le s.in2) → s.in0.length = s.in2.length →
    le s.in0 < le s.in2 →
    exec .modexpPub s = .next { s with
      engineBusy := false, out0 := toLE (le s.in0 ^ le s.in3 % le s.in2) s.in2.length, out1 := [], res := 0 }) ∧
  ∀ s : State, s.cryptoAllowed = true → KeyOk 512 s.in2 s.in3 (le s.in2) → s.in1.length = s.in2.length →
    s.in0.length = s.in2.length → le s.in0 < le s.in2 →
    (Nat.gcd s.nextBlinder (le s.in2) = 1 →
      ∃ y, y < le s.in2 ∧
        y * s.nextBlinder % le s.in2 = le s.in0 ^ le s.in1 * s.nextBlinder ^ (le s.in3 * le s.in1) % le s.in2 ∧
        exec .modexpBlinded s = .next { s with
          engineBusy := false, env := s.env.afterDraw.afterDraw, out0 := toLE y s.in2.length, out1 := [], res := 0 } ∧
        ((∀ t, Nat.gcd t (le s.in2) = 1 → t ^ (le s.in3 * le s.in1) % le s.in2 = t % le s.in2) →
          y = le s.in0 ^ le s.in1 % le s.in2)) ∧
    (Nat.gcd s.nextBlinder (le s.in2) ≠ 1 → exec .modexpBlinded s = .next { s with
      engineBusy := false, env := s.env.afterDraw, out0 := [], out1 := [], res := 1 })

/-- R296, R289, R290, R294: `RSA_ENCRYPT` with each padding answers the public power of its padded block, and fails where the
block is not below the modulus. The type 2 filler has `nb - len - 3` bytes, none of them 0, the OAEP seed as many as the hash;
how they are drawn is the model's choice (log 4). Illegal selectors (R295), a bad key (R280, R300) and a message one byte too
long or more fail, and draw nothing. -/
def Obligations.RsaEncryptAnswers : Prop :=
  (∀ (s : State) (padding hash : BitVec 4), s.cryptoAllowed = true →
    (¬ CipherSelectorsLegal padding hash ∨ ¬ KeyOk 256 s.in2 s.in3 (be s.in2) ∨
      padding = 0 ∧ s.in2.length < s.in0.length ∨ padding = 1 ∧ s.in2.length < s.in0.length + 11 ∨
      padding = 2 ∧ ∃ h, hashOfTag hash = some h ∧ s.in2.length < s.in0.length + 2 * h.digestBytes + 2) →
    FailsUnlocked (.rsaEncrypt padding hash) s) ∧
  ∀ s : State, s.cryptoAllowed = true → KeyOk 256 s.in2 s.in3 (be s.in2) →
    let nb := s.in2.length
    let n := be s.in2
    let finish := fun (em : Bytes) (env : Env) =>
      if be em < n then { s with
        engineBusy := false, env := env, out0 := toBE (be em ^ le s.in3 % n) nb, out1 := [], res := 0 }
      else { s with engineBusy := false, env := env, out0 := [], out1 := [], res := 1 }
    (s.in0.length ≤ nb →
      exec (.rsaEncrypt 0 0) s = .next (finish (List.replicate (nb - s.in0.length) 0x00 ++ s.in0) s.env)) ∧
    (s.in0.length + 11 ≤ nb →
      let filler := State.drawNonzeroBytes (nb - s.in0.length - 3) s
      filler.1.length = nb - s.in0.length - 3 ∧ (∀ b ∈ filler.1, b ≠ 0) ∧
      exec (.rsaEncrypt 1 0) s =
        .next (finish ([0x00, 0x02] ++ filler.1 ++ [0x00] ++ s.in0) filler.2.env)) ∧
    ∀ (hash : BitVec 4) (h : HashAlg), hash ≠ 2 → hashOfTag hash = some h →
      s.in0.length + 2 * h.digestBytes + 2 ≤ nb →
      let seed := State.drawBytes h.digestBytes s
      seed.1.length = h.digestBytes ∧
      exec (.rsaEncrypt 2 hash) s = .next (finish (oaepEncode h s.in1 s.in0 seed.1 nb) seed.2.env)

/-- R297: `RSA_DECRYPT` answers the message of the block that the blinded private exponentiation recovers, and `FAIL` where
it does not unpad; the exponent is the first `nb` bytes of `IN1`, the rest is the OAEP label. Illegal selectors (R295), a bad
key (R280, R300), wrong lengths, a ciphertext that is not below the modulus and a blinder that is not invertible fail. How the
blinder and the mask are drawn is the model's choice (log 4). -/
def Obligations.RsaDecryptAnswers : Prop :=
  (∀ (s : State) (padding hash : BitVec 4), s.cryptoAllowed = true →
    (¬ CipherSelectorsLegal padding hash ∨ ¬ KeyOk 256 s.in2 s.in3 (be s.in2) ∨ s.in0.length ≠ s.in2.length ∨
      s.in1.length < s.in2.length ∨ padding ≠ 2 ∧ s.in1.length ≠ s.in2.length ∨ be s.in2 ≤ be s.in0) →
    FailsUnlocked (.rsaDecrypt padding hash) s) ∧
  ∀ (s : State) (padding hash : BitVec 4) (pad : Padding),
    s.cryptoAllowed = true → KeyOk 256 s.in2 s.in3 (be s.in2) → cipherPadding padding hash = some pad →
    s.in0.length = s.in2.length → be s.in0 < be s.in2 → s.in2.length ≤ s.in1.length →
    (padding ≠ 2 → s.in1.length = s.in2.length) →
    (Nat.gcd s.nextBlinder (be s.in2) ≠ 1 → exec (.rsaDecrypt padding hash) s = .next { s with
      engineBusy := false, env := s.env.afterDraw, out0 := [], out1 := [], res := 1 }) ∧
    (Nat.gcd s.nextBlinder (be s.in2) = 1 →
    let d := be (s.in1.take s.in2.length)
    ∃ m, m < be s.in2 ∧
      m * s.nextBlinder % be s.in2 = be s.in0 ^ d * s.nextBlinder ^ (le s.in3 * d) % be s.in2 ∧
      exec (.rsaDecrypt padding hash) s = .next { s with
        engineBusy := false, env := s.env.afterDraw.afterDraw, out1 := [],
        out0 := (unpadCipher pad (s.in1.drop s.in2.length) (toBE m s.in2.length)).getD [],
        res := if (unpadCipher pad (s.in1.drop s.in2.length) (toBE m s.in2.length)).isSome then 0 else 1 })

/-- R298, R288, R292, R294: `RSA_SIGN` answers the blinded private power of its padded block. The hypotheses name the block
`em` of the padding and the draws `env` that it takes; the salt is drawn before the blinder (log 4). Illegal selectors (R295), a
bad key (R280, R300), wrong lengths and a modulus too short for the padding fail and draw nothing; a block that is not below
the modulus and a blinder that is not invertible fail. -/
def Obligations.RsaSignAnswers : Prop :=
  (∀ (s : State) (padding hash : BitVec 4), s.cryptoAllowed = true →
    (¬ SignatureSelectorsLegal padding hash ∨ ¬ KeyOk 256 s.in2 s.in3 (be s.in2) ∨ s.in1.length ≠ s.in2.length ∨
      (∃ pad, signaturePadding padding hash = some pad ∧ s.in0.length ≠ signatureOperandLen pad s.in2.length) ∨
      (∃ h, padding = 1 ∧ signaturePadding padding hash = some (.pkcs1Hash h) ∧ emsaPkcs1 h s.in0 s.in2.length = none) ∨
      ∃ h, padding = 3 ∧ signaturePadding padding hash = some (.pss h) ∧ pssFits h (be s.in2) = false) →
    FailsUnlocked (.rsaSign padding hash) s) ∧
  ∀ (s : State) (padding hash : BitVec 4) (pad : Padding) (em : Bytes) (env : Env),
    s.cryptoAllowed = true → KeyOk 256 s.in2 s.in3 (be s.in2) → signaturePadding padding hash = some pad →
    s.in1.length = s.in2.length → s.in0.length = signatureOperandLen pad s.in2.length →
    (pad = .null → em = s.in0 ∧ env = s.env) →
    (∀ h, pad = .pkcs1Hash h → emsaPkcs1 h s.in0 s.in2.length = some em ∧ env = s.env) →
    (∀ h, pad = .pss h → pssFits h (be s.in2) = true ∧
      em = pssEncode h s.in0 (State.drawBytes (pssSaltLen h (be s.in2)) s).1 (be s.in2) s.in2.length ∧
      env = (State.drawBytes (pssSaltLen h (be s.in2)) s).2.env) →
    let r := ({ s with env := env }).nextBlinder
    (be s.in2 ≤ be em → exec (.rsaSign padding hash) s = .next { s with
      engineBusy := false, env := env, out0 := [], out1 := [], res := 1 }) ∧
    (be em < be s.in2 → Nat.gcd r (be s.in2) ≠ 1 → exec (.rsaSign padding hash) s = .next { s with
      engineBusy := false, env := env.afterDraw, out0 := [], out1 := [], res := 1 }) ∧
    (be em < be s.in2 → Nat.gcd r (be s.in2) = 1 → ∃ y, y < be s.in2 ∧
      y * r % be s.in2 = be em ^ be s.in1 * r ^ (le s.in3 * be s.in1) % be s.in2 ∧
      exec (.rsaSign padding hash) s = .next { s with
        engineBusy := false, env := env.afterDraw.afterDraw, out0 := toBE y s.in2.length, out1 := [], res := 0 })

/-- R299: `RSA_VERIFY` answers `OK` exactly when the block that the public exponentiation recovers is the expected one; it
changes nothing and draws nothing. Illegal selectors (R295), a bad key (R280, R300), wrong lengths and a signature that is not
below the modulus fail. -/
def Obligations.RsaVerifyAnswers : Prop :=
  (∀ (s : State) (padding hash : BitVec 4), s.cryptoAllowed = true →
    (¬ SignatureSelectorsLegal padding hash ∨ ¬ KeyOk 512 s.in2 s.in3 (be s.in2) ∨ s.in1.length ≠ s.in2.length ∨
      (∃ pad, signaturePadding padding hash = some pad ∧ s.in0.length ≠ signatureOperandLen pad s.in2.length) ∨
      be s.in2 ≤ be s.in1) →
    FailsUnlocked (.rsaVerify padding hash) s) ∧
  ∀ (s : State) (padding hash : BitVec 4) (pad : Padding),
    s.cryptoAllowed = true → KeyOk 512 s.in2 s.in3 (be s.in2) → signaturePadding padding hash = some pad →
    s.in1.length = s.in2.length → s.in0.length = signatureOperandLen pad s.in2.length → be s.in1 < be s.in2 →
    let em := toBE (be s.in1 ^ le s.in3 % be s.in2) s.in2.length
    exec (.rsaVerify padding hash) s = .next { s with
      engineBusy := false, out0 := [], out1 := [],
      res := match pad with
        | .pkcs1Hash h => if emsaPkcs1 h s.in0 s.in2.length = some em then 0 else 1
        | .pss h => if pssVerify h s.in0 em (be s.in2) = true then 0 else 1
        | _ => if em = s.in0 then 0 else 1 }

/-- R289 to R293, R297: each padding with draws is undone by its decoder, over every message length that fits. -/
def Obligations.PaddingsRoundTrip : Prop :=
  (∀ m ps : Bytes, 8 ≤ ps.length → (∀ b ∈ ps, b ≠ 0) → emePkcs1Decode (emePkcs1 m ps) = some m) ∧
  (∀ (h : HashAlg) (label m seed : Bytes) (nb : Nat), seed.length = h.digestBytes →
    m.length + 2 * h.digestBytes + 2 ≤ nb → oaepDecode h label (oaepEncode h label m seed nb) = some m) ∧
  ∀ (h : HashAlg) (mHash salt : Bytes) (n nb : Nat), pssFits h n = true → salt.length = pssSaltLen h n →
    pssLen n ≤ nb → (pssEncode h mHash salt n nb).length = nb ∧
      pssVerify h mHash (pssEncode h mHash salt n nb) n = true

/-! ## P256 -/

/-- R251, R252: the two point multiplications: the result is the multiple whatever the blinding draw, and a point off the
curve is refused before anything is drawn, as are operands of another length and a scalar that is 0 or not below the order. -/
def Obligations.PointMulCommands : Prop :=
  (∀ s : State, s.cryptoAllowed = true → (s.in0.length ≠ 32 ∨ be s.in0 = 0 ∨ p256N ≤ be s.in0) →
    FailsUnlocked .p256BaseMul s ∧ FailsUnlocked .p256PointMul s) ∧
  (∀ s : State, s.cryptoAllowed = true → s.in1.length ≠ 64 → FailsUnlocked .p256PointMul s) ∧
  (∀ s : State, s.cryptoAllowed = true → s.in0.length = 32 → 1 ≤ be s.in0 → be s.in0 < p256N →
    exec .p256BaseMul s = .next { s with
      engineBusy := false, env := s.env.afterDraw, out0 := (pointMul (be s.in0) p256G).bytes, out1 := [], res := 0 }) ∧
  ∀ (s : State) (x y : Nat), s.cryptoAllowed = true → s.in0.length = 32 → 1 ≤ be s.in0 → be s.in0 < p256N →
    s.in1.length = 64 → be (s.in1.take 32) = x → be (s.in1.drop 32) = y →
    let good : Prop := x < p256P ∧ y < p256P ∧ (y * y + 3 * x) % p256P = (x * x * x + p256B) % p256P
    (good → exec .p256PointMul s = .next { s with
      engineBusy := false, env := s.env.afterDraw, out0 := (pointMul (be s.in0) (.affine x y)).bytes, out1 := [],
      res := 0 }) ∧
    (¬ good → exec .p256PointMul s = .next { s with engineBusy := false, out0 := [], out1 := [], res := 1 })

/-- R250, R256: `P256_KEY_FROM_BYTES`: a seed that is not 32 bytes fails, candidates from `n-1` on give `RETRY`, an injected
pairwise failure is fatal, and with draws whose first try is accepted and verifies the key pair is answered. A first try that is
rejected, by its candidate or by a zero signature, leaves the command as it is with one try less and the draws after it; with no
try left the failure is fatal. The order of the draws is the model's choice (log 4). -/
def Obligations.KeyFromBytesAnswers : Prop :=
  (∀ s : State, s.cryptoAllowed = true → s.in0.length ≠ 32 → FailsUnlocked .p256KeyFromBytes s) ∧
  (∀ s : State, s.cryptoAllowed = true → s.in0.length = 32 → p256N - 1 ≤ be s.in0 →
    exec .p256KeyFromBytes s = .next { s with engineBusy := false, out0 := [], out1 := [], res := 2 }) ∧
  (∀ s : State, s.cryptoAllowed = true → s.in0.length = 32 → be s.in0 < p256N - 1 →
    (s.fipsInject.getLsbD 7 = true ∨ s.cfg.p256MaxTries = 0) →
    exec .p256KeyFromBytes s = .next { s with
      engineBusy := false, env := s.env.afterDraw, fipsStatus := s.fipsStatus ||| 0x80, pwrupDonePersist := false,
      out0 := [], out1 := [], res := 1 }) ∧
  (∀ (s : State) (tries m0 e c : Nat) (used rest : List Nat),
    s.cryptoAllowed = true → s.in0.length = 32 → be s.in0 < p256N - 1 → s.fipsInject.getLsbD 7 = false →
    s.cfg.p256MaxTries = tries + 1 → s.env.draws = m0 :: e :: c :: (used ++ rest) →
    (p256N - 1 ≤ c % 2 ^ 256 ∧ used = [] ∨ c % 2 ^ 256 < p256N - 1 ∧ used.length = 3 ∧
      signRaw (c % 2 ^ 256 + 1) (be s.in0 + 1) (e % 2 ^ 256) = none) →
    ∃ t, exec .p256KeyFromBytes { s with
        cfg := { s.cfg with p256MaxTries := tries },
        env := { s.env with draws := m0 :: rest, drawCount := s.env.drawCount + (2 + used.length) } } = .next t ∧
      exec .p256KeyFromBytes s = .next { t with cfg := s.cfg }) ∧
  ∀ (s : State) (m0 e c m1 m2 m3 x y r sg : Nat) (rest : List Nat),
    s.cryptoAllowed = true → s.in0.length = 32 → be s.in0 < p256N - 1 → s.fipsInject.getLsbD 7 = false →
    1 ≤ s.cfg.p256MaxTries → s.env.draws = m0 :: e :: c :: m1 :: m2 :: m3 :: rest → c % 2 ^ 256 < p256N - 1 →
    pointMul (be s.in0 + 1) p256G = .affine x y →
    signRaw (c % 2 ^ 256 + 1) (be s.in0 + 1) (e % 2 ^ 256) = some (r, sg) →
    ecdsaVerifyValue x y (e % 2 ^ 256) r sg = true →
    exec .p256KeyFromBytes s = .next { s with
      engineBusy := false, env := { s.env with draws := rest, drawCount := s.env.drawCount + 6 },
      out0 := toBE (be s.in0 + 1) 32, out1 := toBE x 32 ++ toBE y 32, res := 0 }

/-- R253, R254, R216: `ECDSA_SIGN_RAW` by the formulas of the rule, whatever the three blinding draws; `ECDSA_SIGN` whose first
candidate is accepted: the nonce is the generated number plus 1, and the slot has advanced by one generate call. Operands of
another length, scalars that are 0 or not below the order and an absent slot fail and change nothing. A generate call that is
not `OK` ends `ECDSA_SIGN` with its code, `RESEED_NEEDED` among them; one that is `OK`, with or without a reseed of its own, gives
the candidate and leaves its state to the accepted try, which answers the signature;
a try that is rejected, by its candidate or by a zero signature, leaves the command as it is with one try less and the slot
advanced; with no try left it fails. -/
def Obligations.SigningAnswers : Prop :=
  (∀ s : State, s.cryptoAllowed = true →
    (s.in0.length ≠ 32 ∨ s.in1.length ≠ 32 ∨ s.in2.length ≠ 32 ∨ be s.in0 = 0 ∨ p256N ≤ be s.in0 ∨ be s.in1 = 0 ∨
      p256N ≤ be s.in1) →
    FailsUnlocked .ecdsaSignRaw s) ∧
  (∀ (s : State) (i : BitVec 4), s.cryptoAllowed = true →
    (s.cfg.nDrbg ≤ i.toNat ∨ s.in1.length ≠ 32 ∨ s.in2.length ≠ 32 ∨ be s.in1 = 0 ∨ p256N ≤ be s.in1 ∨
      s.cfg.p256MaxTries = 0) →
    FailsUnlocked (.ecdsaSign i) s) ∧
  (∀ (s s1 : State) (i : BitVec 4) (code : Result) (bytes : Bytes) (tries : Nat),
    s.cryptoAllowed = true → i.toNat < s.cfg.nDrbg → s.in1.length = 32 → s.in2.length = 32 →
    1 ≤ be s.in1 → be s.in1 < p256N → s.cfg.p256MaxTries = tries + 1 → s.drbgGenerate i 32 [] = (code, bytes, s1) →
    (code ≠ .ok → exec (.ecdsaSign i) s = .next { s1 with
      engineBusy := false, out0 := [], out1 := [], res := code.code }) ∧
    ((s.drbgAt i).cookie = .valid → (s.drbgAt i).reseedCounter = s.cfg.noAutoReseed →
      exec (.ecdsaSign i) s = .next { s with engineBusy := false, out0 := [], out1 := [], res := 3 }) ∧
    (code = .ok → p256N - 1 ≤ be bytes → ∃ t,
      exec (.ecdsaSign i) { s1 with cfg := { s.cfg with p256MaxTries := tries } } = .next t ∧
      exec (.ecdsaSign i) s = .next { t with cfg := s.cfg }) ∧
    (code = .ok → be bytes < p256N - 1 → signRaw (be bytes + 1) (be s.in1) (be s.in2) = none → ∃ t,
      exec (.ecdsaSign i) { s1 with
        cfg := { s.cfg with p256MaxTries := tries }, env := s1.env.afterDraw.afterDraw.afterDraw } = .next t ∧
      exec (.ecdsaSign i) s = .next { t with cfg := s.cfg }) ∧
    ∀ r sg : Nat, code = .ok → be bytes < p256N - 1 → signRaw (be bytes + 1) (be s.in1) (be s.in2) = some (r, sg) →
      exec (.ecdsaSign i) s = .next { s1 with
        engineBusy := false, env := s1.env.afterDraw.afterDraw.afterDraw, out0 := toBE r 32 ++ toBE sg 32, out1 := [],
        res := 0 }) ∧
  (∀ (s : State) (x1 y1 : Nat), s.cryptoAllowed = true → s.in0.length = 32 → s.in1.length = 32 → s.in2.length = 32 →
    1 ≤ be s.in0 → be s.in0 < p256N → 1 ≤ be s.in1 → be s.in1 < p256N → pointMul (be s.in0) p256G = .affine x1 y1 →
    let r := x1 % p256N
    let sg := invMod (be s.in0) p256N * (be s.in2 + r * be s.in1) % p256N
    exec .ecdsaSignRaw s = .next { s with
      engineBusy := false, env := s.env.afterDraw.afterDraw.afterDraw, out1 := [],
      out0 := if r = 0 ∨ sg = 0 then [] else toBE r 32 ++ toBE sg 32,
      res := if r = 0 ∨ sg = 0 then 2 else 0 }) ∧
  ∀ (s : State) (i : BitVec 4) (r sg : Nat),
    s.cryptoAllowed = true → i.toNat < s.cfg.nDrbg → s.in1.length = 32 → s.in2.length = 32 →
    1 ≤ be s.in1 → be s.in1 < p256N → 1 ≤ s.cfg.p256MaxTries →
    (s.drbgAt i).cookie = .valid → (s.drbgAt i).reseedCounter ≠ s.cfg.noAutoReseed →
    (s.drbgAt i).reseedCounter.toNat ≤ (s.drbgAt i).reseedThreshold.toNat →
    let candidate := be (hmac .sha256 (s.drbgAt i).k (s.drbgAt i).v)
    candidate < p256N - 1 → signRaw (candidate + 1) (be s.in1) (be s.in2) = some (r, sg) →
    exec (.ecdsaSign i) s = .next { s with
      engineBusy := false, env := s.env.afterDraw.afterDraw.afterDraw,
      drbg := s.drbg.set i.toNat { ({ s.drbgAt i with v := hmac .sha256 (s.drbgAt i).k (s.drbgAt i).v } : Drbg).update []
        with reseedCounter := (s.drbgAt i).reseedCounter + 1 } i.isLt,
      out0 := toBE r 32 ++ toBE sg 32, out1 := [], res := 0 }

/-- R255: `ECDSA_VERIFY` answers `OK` exactly under the conditions of the rule, `FAIL` for operands of another length, and
changes nothing. -/
def Obligations.EcdsaVerifyAnswers : Prop :=
  (∀ s : State, s.cryptoAllowed = true → (s.in0.length ≠ 64 ∨ s.in1.length ≠ 32 ∨ s.in2.length ≠ 64) →
    FailsUnlocked .ecdsaVerify s) ∧
  ∀ (s : State) (qx qy e r sg : Nat), s.cryptoAllowed = true →
    s.in0 = toBE qx 32 ++ toBE qy 32 → s.in1 = toBE e 32 → s.in2 = toBE r 32 ++ toBE sg 32 →
    qx < 2 ^ 256 → qy < 2 ^ 256 → e < 2 ^ 256 → r < 2 ^ 256 → sg < 2 ^ 256 →
    ∃ verdict : BitVec 8, exec .ecdsaVerify s = .next { s with
        engineBusy := false, out0 := [], out1 := [], res := verdict } ∧
      (verdict = 0 ∨ verdict = 1) ∧
      (verdict = 0 ↔ 1 ≤ r ∧ r < p256N ∧ 1 ≤ sg ∧ sg < p256N ∧ qx < p256P ∧ qy < p256P ∧
        (qy * qy + 3 * qx) % p256P = (qx * qx * qx + p256B) % p256P ∧
        ∃ x y, (pointMul (e * invMod sg p256N % p256N) p256G).add
          (pointMul (r * invMod sg p256N % p256N) (.affine qx qy)) = .affine x y ∧ x % p256N = r)

/-- R244, R258: the blinding draws have no effect on `RES`, on any port or on any state of the point multiplications and of
signing: with other draws to come, only the draws differ. -/
def Obligations.BlindingIsInvisible : Prop :=
  ∀ (i : Instr), (i = .p256BaseMul ∨ i = .p256PointMul ∨ i = .ecdsaSignRaw ∨ ∃ g, i = .ecdsaSign g) →
    ∀ (s : State) (draws : List Nat) (count : Nat), ∃ t u, exec i s = .next t ∧
      exec i { s with env := { s.env with draws := draws, drawCount := count } } = .next u ∧
      { u with env := { u.env with draws := t.env.draws, drawCount := t.env.drawCount } } = t

/-! ## FIPS -/

/-- R360 to R363: `FIPS_POWER_ON` fails in `ERROR` and does nothing with the gate open; in `UNINITIALIZED`, with a good noise
source and the persisted flag set or every KAT of the battery good, it opens the gate. Without the flag every KAT of the
battery runs and exactly the bits of the bad ones are set; one of them is enough to keep the gate closed. A TRNG startup that
fails ends it with `FAIL` and the TRNG's bits alone, whatever the flag, and with the latch set it fails at once. -/
def Obligations.PowerOnOpensGate : Prop :=
  ((∀ s : State, s.hasError = true → exec .fipsPowerOn s = .next { s with out0 := [], out1 := [], res := 1 }) ∧
  (∀ s : State, s.cryptoAllowed = true → exec .fipsPowerOn s = .next { s with out0 := [], out1 := [], res := 0 }) ∧
  ∀ (s : State) (ws rest : List Word),
    s.fipsStatus &&& 0x4000FFFF = 0 → s.engineBusy = false → s.trng.failed = false → s.fipsInject &&& 0x6 = 0 →
    s.env.noise = ws ++ rest → ws.length = 128 → NoLongRun (sampleStream ws) → WindowsFair ws →
    (s.pwrupDonePersist = true ∨ ∀ id ∈ battery s.cfg, s.katGood id = true) →
    let run := (Trng.afterReset.runTest (sampleStream ws)).1
    exec .fipsPowerOn s = .next { s with
      fipsStatus := s.fipsStatus ||| 0xC0000000, pwrupDonePersist := true,
      trng := { runBit := run.runBit, runLen := run.runLen, window := ws.drop 96, healthy := true, failed := false },
      env := { s.env with noise := rest, noiseCount := s.env.noiseCount + 128 },
      out0 := [], out1 := [], res := 0 }) ∧
  (∀ (s : State) (ws rest : List Word),
    s.fipsStatus &&& 0x4000FFFF = 0 → s.trng.failed = false → s.env.noise = ws ++ rest → ws.length = 128 →
    (¬ (NoLongRun (sampleStream ws) ∧ WindowsFair ws) ∨ s.fipsInject &&& 0x6 ≠ 0) →
    ∃ t, exec .fipsPowerOn s = .next t ∧ s.LeftByBadStartup t ∧ t.cryptoAllowed = false) ∧
  (∀ s : State, s.fipsStatus &&& 0x4000FFFF = 0 → s.trng.failed = true →
    exec .fipsPowerOn s = .next { s with out0 := [], out1 := [], res := 1 }) ∧
  ∀ (s : State) (ws rest : List Word),
    s.fipsStatus = 0 → s.pwrupDonePersist = false → s.trng.failed = false → s.fipsInject &&& 0x6 = 0 →
    s.env.noise = ws ++ rest → ws.length = 128 → NoLongRun (sampleStream ws) → WindowsFair ws →
    (∃ id ∈ battery s.cfg, s.katGood id = false) →
    ∃ t, exec .fipsPowerOn s = .next t ∧ t.res = 1 ∧ t.cryptoAllowed = false ∧ t.pwrupDonePersist = false ∧
      t.fipsStatus &&& 0xC0000000 = 0 ∧
      ∀ j, t.fipsStatus.getLsbD j = true ↔ ∃ id ∈ battery s.cfg, s.katGood id = false ∧ id.errorBit.getLsbD j = true

/-- R364, R365: the status word, and the predicate of the gate by its two conditions. -/
def Obligations.StatusIsReadable : Prop :=
  decode 0x81000000 = .ok .fipsStatus ∧ decode 0x82000000 = .ok .fipsAllowed ∧
  ∀ s : State,
    exec .fipsStatus s = .next { s with
      out0 := [s.fipsStatus.extractLsb' 0 8, s.fipsStatus.extractLsb' 8 8, s.fipsStatus.extractLsb' 16 8,
        s.fipsStatus.extractLsb' 24 8], out1 := [], res := 0 } ∧
    exec .fipsAllowed s = .next { s with
      out0 := [], out1 := [],
      res := if s.fipsStatus.getLsbD 30 = true ∧ s.fipsStatus &&& 0x0000FFFF = 0 then 0 else 1 }

/-- R366, R368, R394: `FIPS_THROW_ERR` records the mask and clears the persisted flag, with an empty mask it fails;
`FIPS_INJECT` adds the mask to the injection bits. That a mask with a TRNG bit sets the TRNG latch is read from R44, which makes
the latch equivalent to those bits, and not named by R366 (log 12). -/
def Obligations.ThrowAndInject : Prop :=
  ∀ (s : State) (mask : BitVec 16),
    decode (0x83#8 ++ 0#8 ++ mask) = .ok (.fipsThrowErr mask) ∧ decode (0x85#8 ++ 0#8 ++ mask) = .ok (.fipsInject mask) ∧
    (mask ≠ 0 → exec (.fipsThrowErr mask) s = .next { s with
      fipsStatus := s.fipsStatus ||| (0#16 ++ mask), pwrupDonePersist := false,
      trng := { s.trng with failed := s.trng.failed || decide (mask &&& 0x6 ≠ 0) },
      out0 := [], out1 := [], res := 0 }) ∧
    exec (.fipsThrowErr 0) s = .next { s with out0 := [], out1 := [], res := 1 } ∧
    exec (.fipsInject mask) s = .next { s with
      fipsInject := s.fipsInject ||| mask, out0 := [], out1 := [], res := 0 }

/-- R367, R363: `FIPS_KAT` with a known selector passes and changes nothing, or sets its error bit and clears the persisted
flag; an injected failure is a failure whatever the computation gives; other selectors fail with no error bit. -/
def Obligations.KatRuns : Prop :=
  (∀ (s : State) (kat : BitVec 4) (id : KatId), s.engineBusy = false →
    katOfSel kat = some id → (id = .rsa2048 → s.cfg.katRsaEnabled = true) →
    (s.fipsInject.setWidth 32 &&& id.errorBit = 0 → katComputes s.cfg id = true →
      exec (.fipsKat kat) s = .next { s with out0 := [], out1 := [], res := 0 }) ∧
    (s.fipsInject.setWidth 32 &&& id.errorBit ≠ 0 ∨ katComputes s.cfg id = false →
      exec (.fipsKat kat) s = .next { s with
        fipsStatus := s.fipsStatus ||| id.errorBit, pwrupDonePersist := false, out0 := [], out1 := [], res := 1 })) ∧
  ∀ (s : State) (kat : BitVec 4), (kat = 0 ∨ 6 < kat.toNat ∨ kat = 6 ∧ s.cfg.katRsaEnabled = false) →
    exec (.fipsKat kat) s = .next { s with out0 := [], out1 := [], res := 1 }

/-! ## The group law -/

/-- R242: `k·P` is `P` added to itself `k` times by the group law, for every point of the curve and every `k`, though the model
computes it by doubling (log 14); and the check values of the rule. -/
def Obligations.PointMulIsRepeatedAddition : Prop :=
  (∀ (k x y : Nat), onCurve x y = true → pointMul k (.affine x y) = (Point.add (.affine x y))^[k] .infinity) ∧
  pointMul 2 p256G = .affine 0x7cf27b188d034f7e8a52380304b51ac3c08969e277f21b35a60b48fc47669978
    0x07775510db8ed040293d9ac69f7430dbba7dade63ce982299e04b79d227873d1 ∧
  pointMul (p256N - 1) p256G = .affine 0x6b17d1f2e12c4247f8bce6e563a440f277037d812deb33a0f4a13945d898c296
    0xb01cbd1c01e58065711814b583f061e9d431cca994cea1313449bf97c840ae0a ∧
  pointMul p256N p256G = .infinity
end

