-- ==== Sys2Proof/Laws/Bytes.lean ====
section
/-! SUPPORT. Byte strings: lengths, the digit expansions of R13 as inverses, the cutting into pieces, and what the loop of
`equals` (R350) decides. -/

namespace Sys2Proof.Machine

@[simp] theorem zeros_length (n : Nat) : (zeros n).length = n := by simp [zeros]

@[simp] theorem rep_length (b : Byte) (n : Nat) : (rep b n).length = n := by simp [rep]

@[simp] theorem xorBytes_length (a b : Bytes) : (xorBytes a b).length = min a.length b.length := by simp [xorBytes]

@[simp] theorem xorByte_length (b : Byte) (s : Bytes) : (xorByte b s).length = s.length := by simp [xorByte]

@[simp] theorem slice_length (s : Bytes) (i j : Nat) : (slice s i j).length = min (j - i) (s.length - i) := by
  simp [slice]

/-! Digits (R13) -/

@[simp] theorem toLE_length (v n : Nat) : (toLE v n).length = n := by
  induction n generalizing v with
  | zero => rfl
  | succ n ih => simp [toLE, ih]

@[simp] theorem toBE_length (v n : Nat) : (toBE v n).length = n := by simp [toBE]

theorem le_lt (s : Bytes) : le s < 256 ^ s.length := by
  induction s with
  | nil => simp [le]
  | cons b bs ih =>
    have hb : b.toNat < 256 := b.isLt
    simp only [le, List.length_cons, pow_succ]
    omega

theorem be_lt (s : Bytes) : be s < 256 ^ s.length := by simpa [be] using le_lt s.reverse

theorem le_toLE (v n : Nat) : le (toLE v n) = v % 256 ^ n := by
  induction n generalizing v with
  | zero => simp [toLE, le, Nat.mod_one]
  | succ n ih => simp [toLE, le, ih, pow_succ', Nat.mod_mul]

theorem be_toBE (v n : Nat) : be (toBE v n) = v % 256 ^ n := by simp [be, toBE, le_toLE]

theorem toLE_le (s : Bytes) : toLE (le s) s.length = s := by
  induction s with
  | nil => rfl
  | cons b bs ih =>
    have hb : b.toNat < 256 := b.isLt
    have h1 : (b.toNat + 256 * le bs) / 256 = le bs := by omega
    have h2 : BitVec.ofNat 8 (b.toNat + 256 * le bs) = b := by
      apply BitVec.eq_of_toNat_eq
      simp only [BitVec.toNat_ofNat]
      omega
    simp [toLE, le, h1, h2, ih]

theorem toBE_be (s : Bytes) : toBE (be s) s.length = s := by
  have h := toLE_le s.reverse
  simp only [List.length_reverse] at h
  simp [toBE, be, h]

/-! Cutting into pieces -/

theorem chunksFuel_flatten (n : Nat) (hn : 0 < n) (fuel : Nat) (s : Bytes) (hf : s.length ≤ fuel) :
    (chunksFuel n fuel s).flatten = s := by
  induction fuel generalizing s with
  | zero => simp_all [chunksFuel]
  | succ fuel ih =>
    unfold chunksFuel
    split
    · next h => simp_all
    · next h =>
      have hs : s ≠ [] := by simpa using h
      have hl : 0 < s.length := List.length_pos_iff.mpr hs
      rw [List.flatten_cons, ih (s.drop n) (by simp only [List.length_drop]; omega), List.take_append_drop]

/-- The pieces put together again. -/
theorem chunks_flatten (n : Nat) (hn : 0 < n) (s : Bytes) : (chunks n s).flatten = s :=
  chunksFuel_flatten n hn s.length s le_rfl

theorem chunksFuel_append (n : Nat) (hn : 0 < n) (fuel fuel' : Nat) (b s : Bytes) (hb : b.length = n)
    (hf : b.length + s.length ≤ fuel) (hf' : s.length ≤ fuel') :
    chunksFuel n fuel (b ++ s) = b :: chunksFuel n fuel' s := by
  induction fuel generalizing b s fuel' with
  | zero => omega
  | succ fuel ih =>
    have hne : (b ++ s).isEmpty = false := by
      cases b with
      | nil => simp_all
      | cons x xs => simp
    simp only [chunksFuel, hne, Bool.false_eq_true, if_false]
    have ht : (b ++ s).take n = b := by rw [← hb, List.take_left]
    have hd : (b ++ s).drop n = s := by rw [← hb, List.drop_left]
    rw [ht, hd]
    congr 1
    cases fuel' with
    | zero =>
      have : s = [] := by simpa using hf'
      subst this
      cases fuel <;> simp [chunksFuel]
    | succ fuel' =>
      by_cases hs : s = []
      · subst hs; cases fuel <;> simp [chunksFuel]
      · have hl : 0 < s.length := List.length_pos_iff.mpr hs
        cases fuel with
        | zero => omega
        | succ fuel =>
          by_cases hsn : s.length ≤ n
          · have h1 : s.take n = s := List.take_of_length_le hsn
            have h2 : s.drop n = [] := List.drop_eq_nil_of_le hsn
            have hse : s.isEmpty = false := by simpa using hs
            simp only [chunksFuel, hse, Bool.false_eq_true, if_false, h1, h2]
            cases fuel <;> cases fuel' <;> simp [chunksFuel]
          · have hsplit : s = s.take n ++ s.drop n := (List.take_append_drop n s).symm
            have hlen : (s.take n).length = n := by simp only [List.length_take]; omega
            have hdl : (s.drop n).length = s.length - n := by simp
            rw [hsplit, ih fuel' (s.take n) (s.drop n) hlen (by omega) (by omega)]
            have hse : (s.take n ++ s.drop n).isEmpty = false := by rw [← hsplit]; simpa using hs
            simp only [chunksFuel, hse, Bool.false_eq_true, if_false]
            have ht2 : (s.take n ++ s.drop n).take n = s.take n := by rw [← hsplit]
            have hd2 : (s.take n ++ s.drop n).drop n = s.drop n := by rw [← hsplit]
            rw [ht2, hd2]

/-- The first piece is cut off first. -/
theorem chunks_append (n : Nat) (hn : 0 < n) (b s : Bytes) (hb : b.length = n) :
    chunks n (b ++ s) = b :: chunks n s := by
  unfold chunks
  exact chunksFuel_append n hn _ _ b s hb (by simp) le_rfl

@[simp] theorem chunks_nil (n : Nat) : chunks n [] = [] := rfl

/-- Whole pieces put together are cut as they were. -/
theorem chunks_flatten_append (n : Nat) (hn : 0 < n) (bs : List Bytes) (s : Bytes) (hb : ∀ b ∈ bs, b.length = n) :
    chunks n (bs.flatten ++ s) = bs ++ chunks n s := by
  induction bs with
  | nil => rfl
  | cons b bs ih =>
    have hh : b.length = n := hb b (by simp)
    have ht : ∀ x ∈ bs, x.length = n := fun x hx => hb x (by simp [hx])
    rw [List.flatten_cons, List.append_assoc, chunks_append n hn b _ hh, ih ht, List.cons_append]

/-! `equals` (R350) -/

theorem equalsLoop_eq_zero (n : Nat) (a b : Bytes) (acc : Byte) (ha : a.length = n) (hb : b.length = n) :
    equalsLoop n a b acc = 0#8 ↔ acc = 0#8 ∧ a = b := by
  induction n generalizing a b acc with
  | zero => simp_all [equalsLoop]
  | succ n ih =>
    obtain ⟨x, xs, rfl⟩ := List.exists_cons_of_length_eq_add_one ha
    obtain ⟨y, ys, rfl⟩ := List.exists_cons_of_length_eq_add_one hb
    simp only [List.length_cons, Nat.add_right_cancel_iff] at ha hb
    simp only [equalsLoop, List.tail_cons, List.headD_cons]
    rw [ih xs ys _ ha hb, BitVec.or_eq_zero_iff, BitVec.xor_eq_zero_iff, List.cons.injEq, and_assoc]

/-- `equals` decides equality of two strings of its length (R350). -/
theorem equals_iff (a b : Bytes) (n : Nat) (ha : a.length = n) (hb : b.length = n) : equals a b n = true ↔ a = b := by
  rw [equals, beq_iff_eq, show (0 : Byte) = 0#8 from rfl, equalsLoop_eq_zero n a b 0#8 ha hb]
  simp

/-- The marker ends the leading zeros (R291, R293). -/
theorem afterOneMarker_zeros (n : Nat) (m : Bytes) : afterOneMarker (zeros n ++ 0x01 :: m) = some m := by
  induction n with
  | zero => simp [zeros, afterOneMarker]
  | succ n ih =>
    have h : zeros (n + 1) ++ (0x01 : Byte) :: m = 0 :: (zeros n ++ 0x01 :: m) := by simp [zeros, List.replicate_succ]
    rw [h]
    simpa [afterOneMarker] using ih

end Sys2Proof.Machine
end

