-- ==== Sys2Proof/Laws/State.lean ====
section
/-! SUPPORT. One lemma for each field, and for each reading of fields, under each update of the state. -/

namespace Sys2Proof.Machine

/-! The four ends of a command are `State.ret`. -/

@[simp] theorem State.fail_eq (s : State) : s.fail = s.ret .fail [] [] := rfl

@[simp] theorem State.done_eq (s : State) : s.done = s.ret .ok [] [] := rfl

@[simp] theorem State.answer_eq (s : State) (v : Bytes) : s.answer v = s.ret .ok v [] := rfl

/-! `withEngine`: everything but the lock is the body's -/

@[simp] theorem State.withEngine_cfg (s : State) (body : State → State) :
    (s.withEngine body).cfg = (body { s with engineBusy := true }).cfg := rfl

@[simp] theorem State.withEngine_cmd (s : State) (body : State → State) :
    (s.withEngine body).cmd = (body { s with engineBusy := true }).cmd := rfl

@[simp] theorem State.withEngine_in0 (s : State) (body : State → State) :
    (s.withEngine body).in0 = (body { s with engineBusy := true }).in0 := rfl

@[simp] theorem State.withEngine_in1 (s : State) (body : State → State) :
    (s.withEngine body).in1 = (body { s with engineBusy := true }).in1 := rfl

@[simp] theorem State.withEngine_in2 (s : State) (body : State → State) :
    (s.withEngine body).in2 = (body { s with engineBusy := true }).in2 := rfl

@[simp] theorem State.withEngine_in3 (s : State) (body : State → State) :
    (s.withEngine body).in3 = (body { s with engineBusy := true }).in3 := rfl

@[simp] theorem State.withEngine_out0 (s : State) (body : State → State) :
    (s.withEngine body).out0 = (body { s with engineBusy := true }).out0 := rfl

@[simp] theorem State.withEngine_out1 (s : State) (body : State → State) :
    (s.withEngine body).out1 = (body { s with engineBusy := true }).out1 := rfl

@[simp] theorem State.withEngine_res (s : State) (body : State → State) :
    (s.withEngine body).res = (body { s with engineBusy := true }).res := rfl

@[simp] theorem State.withEngine_fipsStatus (s : State) (body : State → State) :
    (s.withEngine body).fipsStatus = (body { s with engineBusy := true }).fipsStatus := rfl

@[simp] theorem State.withEngine_pwrupDonePersist (s : State) (body : State → State) :
    (s.withEngine body).pwrupDonePersist = (body { s with engineBusy := true }).pwrupDonePersist := rfl

@[simp] theorem State.withEngine_fipsInject (s : State) (body : State → State) :
    (s.withEngine body).fipsInject = (body { s with engineBusy := true }).fipsInject := rfl

@[simp] theorem State.withEngine_shaHwOwner (s : State) (body : State → State) :
    (s.withEngine body).shaHwOwner = (body { s with engineBusy := true }).shaHwOwner := rfl

@[simp] theorem State.withEngine_engineBusy (s : State) (body : State → State) :
    (s.withEngine body).engineBusy = false := rfl

@[simp] theorem State.withEngine_ctx (s : State) (body : State → State) :
    (s.withEngine body).ctx = (body { s with engineBusy := true }).ctx := rfl

@[simp] theorem State.withEngine_drbg (s : State) (body : State → State) :
    (s.withEngine body).drbg = (body { s with engineBusy := true }).drbg := rfl

@[simp] theorem State.withEngine_trng (s : State) (body : State → State) :
    (s.withEngine body).trng = (body { s with engineBusy := true }).trng := rfl

@[simp] theorem State.withEngine_env (s : State) (body : State → State) :
    (s.withEngine body).env = (body { s with engineBusy := true }).env := rfl

/-! `ret` -/

@[simp] theorem State.ret_cfg (s : State) (r : Result) (a b : Bytes) : (s.ret r a b).cfg = s.cfg := rfl

@[simp] theorem State.ret_cmd (s : State) (r : Result) (a b : Bytes) : (s.ret r a b).cmd = s.cmd := rfl

@[simp] theorem State.ret_in0 (s : State) (r : Result) (a b : Bytes) : (s.ret r a b).in0 = s.in0 := rfl

@[simp] theorem State.ret_in1 (s : State) (r : Result) (a b : Bytes) : (s.ret r a b).in1 = s.in1 := rfl

@[simp] theorem State.ret_in2 (s : State) (r : Result) (a b : Bytes) : (s.ret r a b).in2 = s.in2 := rfl

@[simp] theorem State.ret_in3 (s : State) (r : Result) (a b : Bytes) : (s.ret r a b).in3 = s.in3 := rfl

@[simp] theorem State.ret_out0 (s : State) (r : Result) (a b : Bytes) : (s.ret r a b).out0 = a := rfl

@[simp] theorem State.ret_out1 (s : State) (r : Result) (a b : Bytes) : (s.ret r a b).out1 = b := rfl

@[simp] theorem State.ret_res (s : State) (r : Result) (a b : Bytes) : (s.ret r a b).res = r.code := rfl

@[simp] theorem State.ret_fipsStatus (s : State) (r : Result) (a b : Bytes) :
    (s.ret r a b).fipsStatus = s.fipsStatus := rfl

@[simp] theorem State.ret_pwrupDonePersist (s : State) (r : Result) (a b : Bytes) :
    (s.ret r a b).pwrupDonePersist = s.pwrupDonePersist := rfl

@[simp] theorem State.ret_fipsInject (s : State) (r : Result) (a b : Bytes) :
    (s.ret r a b).fipsInject = s.fipsInject := rfl

@[simp] theorem State.ret_shaHwOwner (s : State) (r : Result) (a b : Bytes) :
    (s.ret r a b).shaHwOwner = s.shaHwOwner := rfl

@[simp] theorem State.ret_engineBusy (s : State) (r : Result) (a b : Bytes) :
    (s.ret r a b).engineBusy = s.engineBusy := rfl

@[simp] theorem State.ret_ctx (s : State) (r : Result) (a b : Bytes) : (s.ret r a b).ctx = s.ctx := rfl

@[simp] theorem State.ret_drbg (s : State) (r : Result) (a b : Bytes) : (s.ret r a b).drbg = s.drbg := rfl

@[simp] theorem State.ret_trng (s : State) (r : Result) (a b : Bytes) : (s.ret r a b).trng = s.trng := rfl

@[simp] theorem State.ret_env (s : State) (r : Result) (a b : Bytes) : (s.ret r a b).env = s.env := rfl

@[simp] theorem State.ret_hasError (s : State) (r : Result) (a b : Bytes) : (s.ret r a b).hasError = s.hasError := rfl

@[simp] theorem State.ret_testsDone (s : State) (r : Result) (a b : Bytes) :
    (s.ret r a b).testsDone = s.testsDone := rfl

@[simp] theorem State.ret_cryptoAllowed (s : State) (r : Result) (a b : Bytes) :
    (s.ret r a b).cryptoAllowed = s.cryptoAllowed := rfl

@[simp] theorem State.ret_injected (s : State) (r : Result) (a b : Bytes) (inj : Word) :
    (s.ret r a b).injected inj = s.injected inj := rfl

@[simp] theorem State.ret_ctxAt (s : State) (r : Result) (a b : Bytes) (j : BitVec 4) :
    (s.ret r a b).ctxAt j = s.ctxAt j := rfl

@[simp] theorem State.ret_drbgAt (s : State) (r : Result) (a b : Bytes) (j : BitVec 4) :
    (s.ret r a b).drbgAt j = s.drbgAt j := rfl

@[simp] theorem State.ret_isCtxSlot (s : State) (r : Result) (a b : Bytes) (j : BitVec 4) :
    (s.ret r a b).isCtxSlot j = s.isCtxSlot j := rfl

@[simp] theorem State.ret_isDrbgSlot (s : State) (r : Result) (a b : Bytes) (j : BitVec 4) :
    (s.ret r a b).isDrbgSlot j = s.isDrbgSlot j := rfl

/-! `raiseFatal` -/

@[simp] theorem State.raiseFatal_cfg (s : State) (bits : Word) : (s.raiseFatal bits).cfg = s.cfg := rfl

@[simp] theorem State.raiseFatal_cmd (s : State) (bits : Word) : (s.raiseFatal bits).cmd = s.cmd := rfl

@[simp] theorem State.raiseFatal_in0 (s : State) (bits : Word) : (s.raiseFatal bits).in0 = s.in0 := rfl

@[simp] theorem State.raiseFatal_in1 (s : State) (bits : Word) : (s.raiseFatal bits).in1 = s.in1 := rfl

@[simp] theorem State.raiseFatal_in2 (s : State) (bits : Word) : (s.raiseFatal bits).in2 = s.in2 := rfl

@[simp] theorem State.raiseFatal_in3 (s : State) (bits : Word) : (s.raiseFatal bits).in3 = s.in3 := rfl

@[simp] theorem State.raiseFatal_out0 (s : State) (bits : Word) : (s.raiseFatal bits).out0 = s.out0 := rfl

@[simp] theorem State.raiseFatal_out1 (s : State) (bits : Word) : (s.raiseFatal bits).out1 = s.out1 := rfl

@[simp] theorem State.raiseFatal_res (s : State) (bits : Word) : (s.raiseFatal bits).res = s.res := rfl

@[simp] theorem State.raiseFatal_fipsStatus (s : State) (bits : Word) :
    (s.raiseFatal bits).fipsStatus = s.fipsStatus ||| (bits &&& errorMask) := rfl

@[simp] theorem State.raiseFatal_pwrupDonePersist (s : State) (bits : Word) :
    (s.raiseFatal bits).pwrupDonePersist = false := rfl

@[simp] theorem State.raiseFatal_fipsInject (s : State) (bits : Word) :
    (s.raiseFatal bits).fipsInject = s.fipsInject := rfl

@[simp] theorem State.raiseFatal_shaHwOwner (s : State) (bits : Word) :
    (s.raiseFatal bits).shaHwOwner = s.shaHwOwner := rfl

@[simp] theorem State.raiseFatal_engineBusy (s : State) (bits : Word) :
    (s.raiseFatal bits).engineBusy = s.engineBusy := rfl

@[simp] theorem State.raiseFatal_ctx (s : State) (bits : Word) : (s.raiseFatal bits).ctx = s.ctx := rfl

@[simp] theorem State.raiseFatal_drbg (s : State) (bits : Word) : (s.raiseFatal bits).drbg = s.drbg := rfl

@[simp] theorem State.raiseFatal_trng (s : State) (bits : Word) : (s.raiseFatal bits).trng = s.trng := rfl

@[simp] theorem State.raiseFatal_env (s : State) (bits : Word) : (s.raiseFatal bits).env = s.env := rfl

@[simp] theorem State.raiseFatal_injected (s : State) (bits : Word) (inj : Word) :
    (s.raiseFatal bits).injected inj = s.injected inj := rfl

@[simp] theorem State.raiseFatal_ctxAt (s : State) (bits : Word) (j : BitVec 4) :
    (s.raiseFatal bits).ctxAt j = s.ctxAt j := rfl

@[simp] theorem State.raiseFatal_drbgAt (s : State) (bits : Word) (j : BitVec 4) :
    (s.raiseFatal bits).drbgAt j = s.drbgAt j := rfl

@[simp] theorem State.raiseFatal_isCtxSlot (s : State) (bits : Word) (j : BitVec 4) :
    (s.raiseFatal bits).isCtxSlot j = s.isCtxSlot j := rfl

@[simp] theorem State.raiseFatal_isDrbgSlot (s : State) (bits : Word) (j : BitVec 4) :
    (s.raiseFatal bits).isDrbgSlot j = s.isDrbgSlot j := rfl

/-! `setCtx` -/

@[simp] theorem State.setCtx_cfg (s : State) (i : BitVec 4) (c : CtxSlot) : (s.setCtx i c).cfg = s.cfg := rfl

@[simp] theorem State.setCtx_cmd (s : State) (i : BitVec 4) (c : CtxSlot) : (s.setCtx i c).cmd = s.cmd := rfl

@[simp] theorem State.setCtx_in0 (s : State) (i : BitVec 4) (c : CtxSlot) : (s.setCtx i c).in0 = s.in0 := rfl

@[simp] theorem State.setCtx_in1 (s : State) (i : BitVec 4) (c : CtxSlot) : (s.setCtx i c).in1 = s.in1 := rfl

@[simp] theorem State.setCtx_in2 (s : State) (i : BitVec 4) (c : CtxSlot) : (s.setCtx i c).in2 = s.in2 := rfl

@[simp] theorem State.setCtx_in3 (s : State) (i : BitVec 4) (c : CtxSlot) : (s.setCtx i c).in3 = s.in3 := rfl

@[simp] theorem State.setCtx_out0 (s : State) (i : BitVec 4) (c : CtxSlot) : (s.setCtx i c).out0 = s.out0 := rfl

@[simp] theorem State.setCtx_out1 (s : State) (i : BitVec 4) (c : CtxSlot) : (s.setCtx i c).out1 = s.out1 := rfl

@[simp] theorem State.setCtx_res (s : State) (i : BitVec 4) (c : CtxSlot) : (s.setCtx i c).res = s.res := rfl

@[simp] theorem State.setCtx_fipsStatus (s : State) (i : BitVec 4) (c : CtxSlot) :
    (s.setCtx i c).fipsStatus = s.fipsStatus := rfl

@[simp] theorem State.setCtx_pwrupDonePersist (s : State) (i : BitVec 4) (c : CtxSlot) :
    (s.setCtx i c).pwrupDonePersist = s.pwrupDonePersist := rfl

@[simp] theorem State.setCtx_fipsInject (s : State) (i : BitVec 4) (c : CtxSlot) :
    (s.setCtx i c).fipsInject = s.fipsInject := rfl

@[simp] theorem State.setCtx_shaHwOwner (s : State) (i : BitVec 4) (c : CtxSlot) :
    (s.setCtx i c).shaHwOwner = s.shaHwOwner := rfl

@[simp] theorem State.setCtx_engineBusy (s : State) (i : BitVec 4) (c : CtxSlot) :
    (s.setCtx i c).engineBusy = s.engineBusy := rfl

@[simp] theorem State.setCtx_ctx (s : State) (i : BitVec 4) (c : CtxSlot) :
    (s.setCtx i c).ctx = s.ctx.set i.toNat c i.isLt := rfl

@[simp] theorem State.setCtx_drbg (s : State) (i : BitVec 4) (c : CtxSlot) : (s.setCtx i c).drbg = s.drbg := rfl

@[simp] theorem State.setCtx_trng (s : State) (i : BitVec 4) (c : CtxSlot) : (s.setCtx i c).trng = s.trng := rfl

@[simp] theorem State.setCtx_env (s : State) (i : BitVec 4) (c : CtxSlot) : (s.setCtx i c).env = s.env := rfl

@[simp] theorem State.setCtx_hasError (s : State) (i : BitVec 4) (c : CtxSlot) :
    (s.setCtx i c).hasError = s.hasError := rfl

@[simp] theorem State.setCtx_testsDone (s : State) (i : BitVec 4) (c : CtxSlot) :
    (s.setCtx i c).testsDone = s.testsDone := rfl

@[simp] theorem State.setCtx_cryptoAllowed (s : State) (i : BitVec 4) (c : CtxSlot) :
    (s.setCtx i c).cryptoAllowed = s.cryptoAllowed := rfl

@[simp] theorem State.setCtx_injected (s : State) (i : BitVec 4) (c : CtxSlot) (inj : Word) :
    (s.setCtx i c).injected inj = s.injected inj := rfl

@[simp] theorem State.setCtx_drbgAt (s : State) (i : BitVec 4) (c : CtxSlot) (j : BitVec 4) :
    (s.setCtx i c).drbgAt j = s.drbgAt j := rfl

@[simp] theorem State.setCtx_isCtxSlot (s : State) (i : BitVec 4) (c : CtxSlot) (j : BitVec 4) :
    (s.setCtx i c).isCtxSlot j = s.isCtxSlot j := rfl

@[simp] theorem State.setCtx_isDrbgSlot (s : State) (i : BitVec 4) (c : CtxSlot) (j : BitVec 4) :
    (s.setCtx i c).isDrbgSlot j = s.isDrbgSlot j := rfl

/-! `setDrbg` -/

@[simp] theorem State.setDrbg_cfg (s : State) (i : BitVec 4) (d : Drbg) : (s.setDrbg i d).cfg = s.cfg := rfl

@[simp] theorem State.setDrbg_cmd (s : State) (i : BitVec 4) (d : Drbg) : (s.setDrbg i d).cmd = s.cmd := rfl

@[simp] theorem State.setDrbg_in0 (s : State) (i : BitVec 4) (d : Drbg) : (s.setDrbg i d).in0 = s.in0 := rfl

@[simp] theorem State.setDrbg_in1 (s : State) (i : BitVec 4) (d : Drbg) : (s.setDrbg i d).in1 = s.in1 := rfl

@[simp] theorem State.setDrbg_in2 (s : State) (i : BitVec 4) (d : Drbg) : (s.setDrbg i d).in2 = s.in2 := rfl

@[simp] theorem State.setDrbg_in3 (s : State) (i : BitVec 4) (d : Drbg) : (s.setDrbg i d).in3 = s.in3 := rfl

@[simp] theorem State.setDrbg_out0 (s : State) (i : BitVec 4) (d : Drbg) : (s.setDrbg i d).out0 = s.out0 := rfl

@[simp] theorem State.setDrbg_out1 (s : State) (i : BitVec 4) (d : Drbg) : (s.setDrbg i d).out1 = s.out1 := rfl

@[simp] theorem State.setDrbg_res (s : State) (i : BitVec 4) (d : Drbg) : (s.setDrbg i d).res = s.res := rfl

@[simp] theorem State.setDrbg_fipsStatus (s : State) (i : BitVec 4) (d : Drbg) :
    (s.setDrbg i d).fipsStatus = s.fipsStatus := rfl

@[simp] theorem State.setDrbg_pwrupDonePersist (s : State) (i : BitVec 4) (d : Drbg) :
    (s.setDrbg i d).pwrupDonePersist = s.pwrupDonePersist := rfl

@[simp] theorem State.setDrbg_fipsInject (s : State) (i : BitVec 4) (d : Drbg) :
    (s.setDrbg i d).fipsInject = s.fipsInject := rfl

@[simp] theorem State.setDrbg_shaHwOwner (s : State) (i : BitVec 4) (d : Drbg) :
    (s.setDrbg i d).shaHwOwner = s.shaHwOwner := rfl

@[simp] theorem State.setDrbg_engineBusy (s : State) (i : BitVec 4) (d : Drbg) :
    (s.setDrbg i d).engineBusy = s.engineBusy := rfl

@[simp] theorem State.setDrbg_ctx (s : State) (i : BitVec 4) (d : Drbg) : (s.setDrbg i d).ctx = s.ctx := rfl

@[simp] theorem State.setDrbg_drbg (s : State) (i : BitVec 4) (d : Drbg) :
    (s.setDrbg i d).drbg = s.drbg.set i.toNat d i.isLt := rfl

@[simp] theorem State.setDrbg_trng (s : State) (i : BitVec 4) (d : Drbg) : (s.setDrbg i d).trng = s.trng := rfl

@[simp] theorem State.setDrbg_env (s : State) (i : BitVec 4) (d : Drbg) : (s.setDrbg i d).env = s.env := rfl

@[simp] theorem State.setDrbg_hasError (s : State) (i : BitVec 4) (d : Drbg) :
    (s.setDrbg i d).hasError = s.hasError := rfl

@[simp] theorem State.setDrbg_testsDone (s : State) (i : BitVec 4) (d : Drbg) :
    (s.setDrbg i d).testsDone = s.testsDone := rfl

@[simp] theorem State.setDrbg_cryptoAllowed (s : State) (i : BitVec 4) (d : Drbg) :
    (s.setDrbg i d).cryptoAllowed = s.cryptoAllowed := rfl

@[simp] theorem State.setDrbg_injected (s : State) (i : BitVec 4) (d : Drbg) (inj : Word) :
    (s.setDrbg i d).injected inj = s.injected inj := rfl

@[simp] theorem State.setDrbg_ctxAt (s : State) (i : BitVec 4) (d : Drbg) (j : BitVec 4) :
    (s.setDrbg i d).ctxAt j = s.ctxAt j := rfl

@[simp] theorem State.setDrbg_isCtxSlot (s : State) (i : BitVec 4) (d : Drbg) (j : BitVec 4) :
    (s.setDrbg i d).isCtxSlot j = s.isCtxSlot j := rfl

@[simp] theorem State.setDrbg_isDrbgSlot (s : State) (i : BitVec 4) (d : Drbg) (j : BitVec 4) :
    (s.setDrbg i d).isDrbgSlot j = s.isDrbgSlot j := rfl

/-! `noiseWord` -/

@[simp] theorem State.noiseWord_cfg (s : State) : (s.noiseWord.2).cfg = s.cfg := rfl

@[simp] theorem State.noiseWord_cmd (s : State) : (s.noiseWord.2).cmd = s.cmd := rfl

@[simp] theorem State.noiseWord_in0 (s : State) : (s.noiseWord.2).in0 = s.in0 := rfl

@[simp] theorem State.noiseWord_in1 (s : State) : (s.noiseWord.2).in1 = s.in1 := rfl

@[simp] theorem State.noiseWord_in2 (s : State) : (s.noiseWord.2).in2 = s.in2 := rfl

@[simp] theorem State.noiseWord_in3 (s : State) : (s.noiseWord.2).in3 = s.in3 := rfl

@[simp] theorem State.noiseWord_out0 (s : State) : (s.noiseWord.2).out0 = s.out0 := rfl

@[simp] theorem State.noiseWord_out1 (s : State) : (s.noiseWord.2).out1 = s.out1 := rfl

@[simp] theorem State.noiseWord_res (s : State) : (s.noiseWord.2).res = s.res := rfl

@[simp] theorem State.noiseWord_fipsStatus (s : State) : (s.noiseWord.2).fipsStatus = s.fipsStatus := rfl

@[simp] theorem State.noiseWord_pwrupDonePersist (s : State) :
    (s.noiseWord.2).pwrupDonePersist = s.pwrupDonePersist := rfl

@[simp] theorem State.noiseWord_fipsInject (s : State) : (s.noiseWord.2).fipsInject = s.fipsInject := rfl

@[simp] theorem State.noiseWord_shaHwOwner (s : State) : (s.noiseWord.2).shaHwOwner = s.shaHwOwner := rfl

@[simp] theorem State.noiseWord_engineBusy (s : State) : (s.noiseWord.2).engineBusy = s.engineBusy := rfl

@[simp] theorem State.noiseWord_ctx (s : State) : (s.noiseWord.2).ctx = s.ctx := rfl

@[simp] theorem State.noiseWord_drbg (s : State) : (s.noiseWord.2).drbg = s.drbg := rfl

@[simp] theorem State.noiseWord_trng (s : State) : (s.noiseWord.2).trng = s.trng := rfl

@[simp] theorem State.noiseWord_env (s : State) : (s.noiseWord.2).env = s.env.afterNoise := rfl

@[simp] theorem State.noiseWord_hasError (s : State) : (s.noiseWord.2).hasError = s.hasError := rfl

@[simp] theorem State.noiseWord_testsDone (s : State) : (s.noiseWord.2).testsDone = s.testsDone := rfl

@[simp] theorem State.noiseWord_cryptoAllowed (s : State) : (s.noiseWord.2).cryptoAllowed = s.cryptoAllowed := rfl

@[simp] theorem State.noiseWord_injected (s : State) (inj : Word) :
    (s.noiseWord.2).injected inj = s.injected inj := rfl

@[simp] theorem State.noiseWord_ctxAt (s : State) (j : BitVec 4) : (s.noiseWord.2).ctxAt j = s.ctxAt j := rfl

@[simp] theorem State.noiseWord_drbgAt (s : State) (j : BitVec 4) : (s.noiseWord.2).drbgAt j = s.drbgAt j := rfl

@[simp] theorem State.noiseWord_isCtxSlot (s : State) (j : BitVec 4) :
    (s.noiseWord.2).isCtxSlot j = s.isCtxSlot j := rfl

@[simp] theorem State.noiseWord_isDrbgSlot (s : State) (j : BitVec 4) :
    (s.noiseWord.2).isDrbgSlot j = s.isDrbgSlot j := rfl

/-! `draw` -/

@[simp] theorem State.draw_cfg (s : State) (n : Nat) : ((s.draw n).2).cfg = s.cfg := rfl

@[simp] theorem State.draw_cmd (s : State) (n : Nat) : ((s.draw n).2).cmd = s.cmd := rfl

@[simp] theorem State.draw_in0 (s : State) (n : Nat) : ((s.draw n).2).in0 = s.in0 := rfl

@[simp] theorem State.draw_in1 (s : State) (n : Nat) : ((s.draw n).2).in1 = s.in1 := rfl

@[simp] theorem State.draw_in2 (s : State) (n : Nat) : ((s.draw n).2).in2 = s.in2 := rfl

@[simp] theorem State.draw_in3 (s : State) (n : Nat) : ((s.draw n).2).in3 = s.in3 := rfl

@[simp] theorem State.draw_out0 (s : State) (n : Nat) : ((s.draw n).2).out0 = s.out0 := rfl

@[simp] theorem State.draw_out1 (s : State) (n : Nat) : ((s.draw n).2).out1 = s.out1 := rfl

@[simp] theorem State.draw_res (s : State) (n : Nat) : ((s.draw n).2).res = s.res := rfl

@[simp] theorem State.draw_fipsStatus (s : State) (n : Nat) : ((s.draw n).2).fipsStatus = s.fipsStatus := rfl

@[simp] theorem State.draw_pwrupDonePersist (s : State) (n : Nat) :
    ((s.draw n).2).pwrupDonePersist = s.pwrupDonePersist := rfl

@[simp] theorem State.draw_fipsInject (s : State) (n : Nat) : ((s.draw n).2).fipsInject = s.fipsInject := rfl

@[simp] theorem State.draw_shaHwOwner (s : State) (n : Nat) : ((s.draw n).2).shaHwOwner = s.shaHwOwner := rfl

@[simp] theorem State.draw_engineBusy (s : State) (n : Nat) : ((s.draw n).2).engineBusy = s.engineBusy := rfl

@[simp] theorem State.draw_ctx (s : State) (n : Nat) : ((s.draw n).2).ctx = s.ctx := rfl

@[simp] theorem State.draw_drbg (s : State) (n : Nat) : ((s.draw n).2).drbg = s.drbg := rfl

@[simp] theorem State.draw_trng (s : State) (n : Nat) : ((s.draw n).2).trng = s.trng := rfl

@[simp] theorem State.draw_env (s : State) (n : Nat) : ((s.draw n).2).env = s.env.afterDraw := rfl

@[simp] theorem State.draw_hasError (s : State) (n : Nat) : ((s.draw n).2).hasError = s.hasError := rfl

@[simp] theorem State.draw_testsDone (s : State) (n : Nat) : ((s.draw n).2).testsDone = s.testsDone := rfl

@[simp] theorem State.draw_cryptoAllowed (s : State) (n : Nat) : ((s.draw n).2).cryptoAllowed = s.cryptoAllowed := rfl

@[simp] theorem State.draw_injected (s : State) (n : Nat) (inj : Word) :
    ((s.draw n).2).injected inj = s.injected inj := rfl

@[simp] theorem State.draw_ctxAt (s : State) (n : Nat) (j : BitVec 4) : ((s.draw n).2).ctxAt j = s.ctxAt j := rfl

@[simp] theorem State.draw_drbgAt (s : State) (n : Nat) (j : BitVec 4) : ((s.draw n).2).drbgAt j = s.drbgAt j := rfl

@[simp] theorem State.draw_isCtxSlot (s : State) (n : Nat) (j : BitVec 4) :
    ((s.draw n).2).isCtxSlot j = s.isCtxSlot j := rfl

@[simp] theorem State.draw_isDrbgSlot (s : State) (n : Nat) (j : BitVec 4) :
    ((s.draw n).2).isDrbgSlot j = s.isDrbgSlot j := rfl

/-! `withSchedule` -/

@[simp] theorem State.withSchedule_cfg (s : State) (rest : List Event) : (s.withSchedule rest).cfg = s.cfg := rfl

@[simp] theorem State.withSchedule_cmd (s : State) (rest : List Event) : (s.withSchedule rest).cmd = s.cmd := rfl

@[simp] theorem State.withSchedule_in0 (s : State) (rest : List Event) : (s.withSchedule rest).in0 = s.in0 := rfl

@[simp] theorem State.withSchedule_in1 (s : State) (rest : List Event) : (s.withSchedule rest).in1 = s.in1 := rfl

@[simp] theorem State.withSchedule_in2 (s : State) (rest : List Event) : (s.withSchedule rest).in2 = s.in2 := rfl

@[simp] theorem State.withSchedule_in3 (s : State) (rest : List Event) : (s.withSchedule rest).in3 = s.in3 := rfl

@[simp] theorem State.withSchedule_out0 (s : State) (rest : List Event) : (s.withSchedule rest).out0 = s.out0 := rfl

@[simp] theorem State.withSchedule_out1 (s : State) (rest : List Event) : (s.withSchedule rest).out1 = s.out1 := rfl

@[simp] theorem State.withSchedule_res (s : State) (rest : List Event) : (s.withSchedule rest).res = s.res := rfl

@[simp] theorem State.withSchedule_fipsStatus (s : State) (rest : List Event) :
    (s.withSchedule rest).fipsStatus = s.fipsStatus := rfl

@[simp] theorem State.withSchedule_pwrupDonePersist (s : State) (rest : List Event) :
    (s.withSchedule rest).pwrupDonePersist = s.pwrupDonePersist := rfl

@[simp] theorem State.withSchedule_fipsInject (s : State) (rest : List Event) :
    (s.withSchedule rest).fipsInject = s.fipsInject := rfl

@[simp] theorem State.withSchedule_shaHwOwner (s : State) (rest : List Event) :
    (s.withSchedule rest).shaHwOwner = s.shaHwOwner := rfl

@[simp] theorem State.withSchedule_engineBusy (s : State) (rest : List Event) :
    (s.withSchedule rest).engineBusy = s.engineBusy := rfl

@[simp] theorem State.withSchedule_ctx (s : State) (rest : List Event) : (s.withSchedule rest).ctx = s.ctx := rfl

@[simp] theorem State.withSchedule_drbg (s : State) (rest : List Event) : (s.withSchedule rest).drbg = s.drbg := rfl

@[simp] theorem State.withSchedule_trng (s : State) (rest : List Event) : (s.withSchedule rest).trng = s.trng := rfl

@[simp] theorem State.withSchedule_env (s : State) (rest : List Event) :
    (s.withSchedule rest).env = { s.env with schedule := rest } := rfl

@[simp] theorem State.withSchedule_hasError (s : State) (rest : List Event) :
    (s.withSchedule rest).hasError = s.hasError := rfl

@[simp] theorem State.withSchedule_testsDone (s : State) (rest : List Event) :
    (s.withSchedule rest).testsDone = s.testsDone := rfl

@[simp] theorem State.withSchedule_cryptoAllowed (s : State) (rest : List Event) :
    (s.withSchedule rest).cryptoAllowed = s.cryptoAllowed := rfl

@[simp] theorem State.withSchedule_injected (s : State) (rest : List Event) (inj : Word) :
    (s.withSchedule rest).injected inj = s.injected inj := rfl

@[simp] theorem State.withSchedule_ctxAt (s : State) (rest : List Event) (j : BitVec 4) :
    (s.withSchedule rest).ctxAt j = s.ctxAt j := rfl

@[simp] theorem State.withSchedule_drbgAt (s : State) (rest : List Event) (j : BitVec 4) :
    (s.withSchedule rest).drbgAt j = s.drbgAt j := rfl

@[simp] theorem State.withSchedule_isCtxSlot (s : State) (rest : List Event) (j : BitVec 4) :
    (s.withSchedule rest).isCtxSlot j = s.isCtxSlot j := rfl

@[simp] theorem State.withSchedule_isDrbgSlot (s : State) (rest : List Event) (j : BitVec 4) :
    (s.withSchedule rest).isDrbgSlot j = s.isDrbgSlot j := rfl

/-! `issue` -/

@[simp] theorem State.issue_cfg (s : State) (w : Word) (a b c d : Bytes) : (s.issue w a b c d).cfg = s.cfg := rfl

@[simp] theorem State.issue_cmd (s : State) (w : Word) (a b c d : Bytes) : (s.issue w a b c d).cmd = w := rfl

@[simp] theorem State.issue_in0 (s : State) (w : Word) (a b c d : Bytes) : (s.issue w a b c d).in0 = a := rfl

@[simp] theorem State.issue_in1 (s : State) (w : Word) (a b c d : Bytes) : (s.issue w a b c d).in1 = b := rfl

@[simp] theorem State.issue_in2 (s : State) (w : Word) (a b c d : Bytes) : (s.issue w a b c d).in2 = c := rfl

@[simp] theorem State.issue_in3 (s : State) (w : Word) (a b c d : Bytes) : (s.issue w a b c d).in3 = d := rfl

@[simp] theorem State.issue_out0 (s : State) (w : Word) (a b c d : Bytes) : (s.issue w a b c d).out0 = s.out0 := rfl

@[simp] theorem State.issue_out1 (s : State) (w : Word) (a b c d : Bytes) : (s.issue w a b c d).out1 = s.out1 := rfl

@[simp] theorem State.issue_res (s : State) (w : Word) (a b c d : Bytes) : (s.issue w a b c d).res = s.res := rfl

@[simp] theorem State.issue_fipsStatus (s : State) (w : Word) (a b c d : Bytes) :
    (s.issue w a b c d).fipsStatus = s.fipsStatus := rfl

@[simp] theorem State.issue_pwrupDonePersist (s : State) (w : Word) (a b c d : Bytes) :
    (s.issue w a b c d).pwrupDonePersist = s.pwrupDonePersist := rfl

@[simp] theorem State.issue_fipsInject (s : State) (w : Word) (a b c d : Bytes) :
    (s.issue w a b c d).fipsInject = s.fipsInject := rfl

@[simp] theorem State.issue_shaHwOwner (s : State) (w : Word) (a b c d : Bytes) :
    (s.issue w a b c d).shaHwOwner = s.shaHwOwner := rfl

@[simp] theorem State.issue_engineBusy (s : State) (w : Word) (a b c d : Bytes) :
    (s.issue w a b c d).engineBusy = s.engineBusy := rfl

@[simp] theorem State.issue_ctx (s : State) (w : Word) (a b c d : Bytes) : (s.issue w a b c d).ctx = s.ctx := rfl

@[simp] theorem State.issue_drbg (s : State) (w : Word) (a b c d : Bytes) : (s.issue w a b c d).drbg = s.drbg := rfl

@[simp] theorem State.issue_trng (s : State) (w : Word) (a b c d : Bytes) : (s.issue w a b c d).trng = s.trng := rfl

@[simp] theorem State.issue_env (s : State) (w : Word) (a b c d : Bytes) : (s.issue w a b c d).env = s.env := rfl

@[simp] theorem State.issue_hasError (s : State) (w : Word) (a b c d : Bytes) :
    (s.issue w a b c d).hasError = s.hasError := rfl

@[simp] theorem State.issue_testsDone (s : State) (w : Word) (a b c d : Bytes) :
    (s.issue w a b c d).testsDone = s.testsDone := rfl

@[simp] theorem State.issue_cryptoAllowed (s : State) (w : Word) (a b c d : Bytes) :
    (s.issue w a b c d).cryptoAllowed = s.cryptoAllowed := rfl

@[simp] theorem State.issue_injected (s : State) (w : Word) (a b c d : Bytes) (inj : Word) :
    (s.issue w a b c d).injected inj = s.injected inj := rfl

@[simp] theorem State.issue_ctxAt (s : State) (w : Word) (a b c d : Bytes) (j : BitVec 4) :
    (s.issue w a b c d).ctxAt j = s.ctxAt j := rfl

@[simp] theorem State.issue_drbgAt (s : State) (w : Word) (a b c d : Bytes) (j : BitVec 4) :
    (s.issue w a b c d).drbgAt j = s.drbgAt j := rfl

@[simp] theorem State.issue_isCtxSlot (s : State) (w : Word) (a b c d : Bytes) (j : BitVec 4) :
    (s.issue w a b c d).isCtxSlot j = s.isCtxSlot j := rfl

@[simp] theorem State.issue_isDrbgSlot (s : State) (w : Word) (a b c d : Bytes) (j : BitVec 4) :
    (s.issue w a b c d).isDrbgSlot j = s.isDrbgSlot j := rfl

/-! The inputs to come -/

@[simp] theorem Env.afterNoise_schedule (e : Env) : e.afterNoise.schedule = e.schedule := rfl

@[simp] theorem Env.afterNoise_noise (e : Env) : e.afterNoise.noise = e.noise.tail := rfl

@[simp] theorem Env.afterNoise_noiseCount (e : Env) : e.afterNoise.noiseCount = e.noiseCount + 1 := rfl

@[simp] theorem Env.afterNoise_draws (e : Env) : e.afterNoise.draws = e.draws := rfl

@[simp] theorem Env.afterNoise_drawCount (e : Env) : e.afterNoise.drawCount = e.drawCount := rfl

@[simp] theorem Env.afterNoise_resetCount (e : Env) : e.afterNoise.resetCount = e.resetCount := rfl

@[simp] theorem Env.afterDraw_schedule (e : Env) : e.afterDraw.schedule = e.schedule := rfl

@[simp] theorem Env.afterDraw_noise (e : Env) : e.afterDraw.noise = e.noise := rfl

@[simp] theorem Env.afterDraw_noiseCount (e : Env) : e.afterDraw.noiseCount = e.noiseCount := rfl

@[simp] theorem Env.afterDraw_draws (e : Env) : e.afterDraw.draws = e.draws.tail := rfl

@[simp] theorem Env.afterDraw_drawCount (e : Env) : e.afterDraw.drawCount = e.drawCount + 1 := rfl

@[simp] theorem Env.afterDraw_resetCount (e : Env) : e.afterDraw.resetCount = e.resetCount := rfl

/-! The result codes -/

@[simp] theorem Result.code_ok : Result.code .ok = 0 := rfl

@[simp] theorem Result.code_fail : Result.code .fail = 1 := rfl

@[simp] theorem Result.code_retry : Result.code .retry = 2 := rfl

@[simp] theorem Result.code_reseedNeeded : Result.code .reseedNeeded = 3 := rfl

end Sys2Proof.Machine
end

