-- ==== Sys2Proof/Laws/Ops.lean ====
section
/-! SUPPORT. What the shared operations of the commands can do, said once for each: the gate check, the verdict, the slot
files, the draws, and that a command always completes. -/

namespace Sys2Proof.Machine

/-! The gate (R392) and the verdict -/

theorem State.gated_open {s : State} (h : s.cryptoAllowed = true) (body : State → State) : s.gated body = body s := by
  simp [State.gated, h]

theorem State.gated_closed {s : State} (h : s.cryptoAllowed = false) (body : State → State) :
    s.gated body = s.ret .fail [] [] := by
  simp [State.gated, h]

/-- A gated command runs its body or fails. -/
theorem State.gated_cases (s : State) (body : State → State) :
    s.cryptoAllowed = true ∧ s.gated body = body s ∨ s.cryptoAllowed = false ∧ s.gated body = s.ret .fail [] [] := by
  cases h : s.cryptoAllowed <;> simp [State.gated, h]

/-- A gated command that holds the engine lock (R84): the lock is taken for its body and free afterwards. -/
theorem State.withEngine_gated_open {s : State} (h : s.cryptoAllowed = true) (body : State → State) :
    (s.withEngine fun s => s.gated body) = { body { s with engineBusy := true } with engineBusy := false } := by
  show { ({ s with engineBusy := true } : State).gated body with engineBusy := false } = _
  rw [State.gated_open (s := { s with engineBusy := true }) h]

/-- The same with the gate closed. -/
theorem State.withEngine_gated_closed {s : State} (h : s.cryptoAllowed = false) (body : State → State) :
    (s.withEngine fun s => s.gated body) = { s.ret .fail [] [] with engineBusy := false } := by
  show { ({ s with engineBusy := true } : State).gated body with engineBusy := false } = _
  rw [State.gated_closed (s := { s with engineBusy := true }) h]
  rfl

@[simp] theorem State.verdict_eq (s : State) (good : Bool) :
    s.verdict good = s.ret (if good then .ok else .fail) [] [] := by
  cases good <;> rfl

/-- The gate looks at `FIPS_STATUS` alone (R36). -/
theorem State.cryptoAllowed_congr {s t : State} (h : t.fipsStatus = s.fipsStatus) : t.cryptoAllowed = s.cryptoAllowed := by
  simp [State.cryptoAllowed, State.testsDone, State.hasError, h]

/-- The gate is open exactly with bit 30 set and no error bit (R36). -/
theorem State.cryptoAllowed_iff (s : State) :
    s.cryptoAllowed = true ↔ s.fipsStatus &&& powerUpTestDone ≠ 0 ∧ s.fipsStatus &&& errorMask = 0 := by
  simp [State.cryptoAllowed, State.testsDone, State.hasError, bne_iff_ne]

/-! The slot files -/

@[simp] theorem State.ctxAt_setCtx_self (s : State) (i : BitVec 4) (c : CtxSlot) : (s.setCtx i c).ctxAt i = c := by
  simp [State.ctxAt, State.setCtx]

theorem State.ctxAt_setCtx_ne (s : State) {i j : BitVec 4} (c : CtxSlot) (h : j ≠ i) :
    (s.setCtx i c).ctxAt j = s.ctxAt j := by
  have hne : i.toNat ≠ j.toNat := fun e => h (BitVec.eq_of_toNat_eq e.symm)
  simp [State.ctxAt, State.setCtx, hne]

@[simp] theorem State.drbgAt_setDrbg_self (s : State) (i : BitVec 4) (d : Drbg) : (s.setDrbg i d).drbgAt i = d := by
  simp [State.drbgAt, State.setDrbg]

theorem State.drbgAt_setDrbg_ne (s : State) {i j : BitVec 4} (d : Drbg) (h : j ≠ i) :
    (s.setDrbg i d).drbgAt j = s.drbgAt j := by
  have hne : i.toNat ≠ j.toNat := fun e => h (BitVec.eq_of_toNat_eq e.symm)
  simp [State.drbgAt, State.setDrbg, hne]

/-- A slot written twice holds the second value. -/
@[simp] theorem State.setDrbg_setDrbg (s : State) (i : BitVec 4) (d d' : Drbg) :
    (s.setDrbg i d).setDrbg i d' = s.setDrbg i d' := by
  simp [State.setDrbg]

@[simp] theorem State.setCtx_setCtx (s : State) (i : BitVec 4) (c c' : CtxSlot) :
    (s.setCtx i c).setCtx i c' = s.setCtx i c' := by
  simp [State.setCtx]

/-! Draws (R15) -/

theorem State.draw_lt (s : State) (n : Nat) : (s.draw n).1 < 2 ^ n := Nat.mod_lt _ (Nat.two_pow_pos n)

/-- A draw that excludes 0 (R282, R289). -/
theorem State.drawNonzero_range (s : State) {n : Nat} (hn : 0 < n) :
    1 ≤ (s.drawNonzero n).1 ∧ (s.drawNonzero n).1 < 2 ^ n := by
  have hlt := State.draw_lt s n
  have h2 : 1 < 2 ^ n := Nat.one_lt_two_pow hn.ne'
  show 1 ≤ (if (s.draw n).1 = 0 then 1 else (s.draw n).1) ∧ (if (s.draw n).1 = 0 then 1 else (s.draw n).1) < 2 ^ n
  split <;> omega

/-- The inputs after `n` draws. -/
def Env.afterDraws (n : Nat) (e : Env) : Env := { e with draws := e.draws.drop n, drawCount := e.drawCount + n }

theorem Env.afterDraws_zero (e : Env) : e.afterDraws 0 = e := rfl

theorem Env.afterDraws_succ (n : Nat) (e : Env) : (e.afterDraw).afterDraws n = e.afterDraws (n + 1) := by
  simp only [Env.afterDraws, Env.afterDraw, Env.mk.injEq, true_and, and_true]
  refine ⟨?_, by omega⟩
  cases e.draws <;> simp

/-- `n` drawn bytes: how many they are, and that the draws alone differ afterwards (R290, R292). -/
theorem State.drawBytes_spec (n : Nat) (s : State) :
    (State.drawBytes n s).1.length = n ∧ (State.drawBytes n s).2 = { s with env := s.env.afterDraws n } := by
  induction n generalizing s with
  | zero => exact ⟨rfl, rfl⟩
  | succ n ih =>
    have h := ih { s with env := s.env.afterDraw }
    exact ⟨congrArg (· + 1) h.1, by rw [← Env.afterDraws_succ]; exact h.2⟩

/-- `n` drawn bytes from 1..255: none of them is 0 (R289). -/
theorem State.drawNonzeroBytes_spec (n : Nat) (s : State) :
    (State.drawNonzeroBytes n s).1.length = n ∧ (∀ b ∈ (State.drawNonzeroBytes n s).1, b ≠ 0) ∧
      (State.drawNonzeroBytes n s).2 = { s with env := s.env.afterDraws n } := by
  induction n generalizing s with
  | zero => exact ⟨rfl, by simp [State.drawNonzeroBytes], rfl⟩
  | succ n ih =>
    have h := ih { s with env := s.env.afterDraw }
    have hr := State.drawNonzero_range s (n := 8) (by decide)
    refine ⟨congrArg (· + 1) h.1, ?_, by rw [← Env.afterDraws_succ]; exact h.2.2⟩
    intro b hb
    have hb' : b = BitVec.ofNat 8 (s.drawNonzero 8).1 ∨
        b ∈ (State.drawNonzeroBytes n { s with env := s.env.afterDraw }).1 := List.mem_cons.mp hb
    rcases hb' with rfl | hb'
    · intro h0
      have h1 : (BitVec.ofNat 8 (s.drawNonzero 8).1).toNat = 0 := by rw [h0]; rfl
      simp only [BitVec.toNat_ofNat] at h1
      omega
    · exact h.2.1 b hb'

/-! Commands complete -/

/-- A command always ends with a result in `RES` (R15): no instruction stops. -/
theorem exec_next (i : Instr) (s : State) : ∃ t, exec i s = .next t := by
  cases i <;> exact ⟨_, rfl⟩

/-- A step by its event. -/
theorem step_cases (s : State) :
    (s.env.schedule = [] ∧ step s = .next s) ∨
    (∃ rest, s.env.schedule = .hardReset :: rest ∧ step s = .next (s.withSchedule rest).hardReset) ∨
    (∃ rest, s.env.schedule = .resume :: rest ∧ step s = .next (s.withSchedule rest).resume) ∨
    ∃ w a b c d rest, s.env.schedule = .command w a b c d :: rest ∧
      (portsFit s.cfg.maxBuf a b c d = false ∧ step s = .fault .portTooLong ∨
        portsFit s.cfg.maxBuf a b c d = true ∧ step s = ((s.withSchedule rest).issue w a b c d).execute) := by
  unfold step
  split
  · next h => exact .inl ⟨h, rfl⟩
  · next rest h => exact .inr (.inl ⟨rest, h, rfl⟩)
  · next rest h => exact .inr (.inr (.inl ⟨rest, h, rfl⟩))
  · next w a b c d rest h =>
    refine .inr (.inr (.inr ⟨w, a, b, c, d, rest, h, ?_⟩))
    cases hp : portsFit s.cfg.maxBuf a b c d <;> simp

/-- The execution of a command word: its instruction's meaning, or `FAIL` for an illegal word (R116). -/
theorem State.execute_cases (s : State) :
    (∃ i, decode s.cmd = .ok i ∧ s.execute = exec i s) ∨
    ∃ e, decode s.cmd = .error e ∧ s.execute = .next (s.ret .fail [] []) := by
  unfold State.execute
  cases h : decode s.cmd with
  | ok i => exact .inl ⟨i, rfl, rfl⟩
  | error e => exact .inr ⟨e, rfl, rfl⟩

end Sys2Proof.Machine
end

