-- ==== Sys2Proof/Laws/Aes.lean ====
section
/-! SUPPORT. AES: lengths of states, round keys and outputs, and everything an AES command can do. -/

namespace Sys2Proof.Machine

/-- The three key lengths (R320). -/
theorem aesKeyLen_eq_some {keysize : BitVec 4} {n : Nat} :
    aesKeyLen keysize = some n ↔ keysize.toNat ≤ 2 ∧ n = 16 + 8 * keysize.toNat := by
  revert keysize
  suffices h : ∀ k : BitVec 4, aesKeyLen k = if k.toNat ≤ 2 then some (16 + 8 * k.toNat) else none by
    intro k
    rw [h k]
    split <;> simp_all [eq_comm]
  decide

/-- Everything an AES command can do: fail, or run its body with the lock taken and released (R84, R320). -/
theorem State.aesCommand_cases (s : State) (keysize : BitVec 4) (body : State → State) :
    s.aesCommand keysize body = { s.ret .fail [] [] with engineBusy := false } ∨
    (s.cryptoAllowed = true ∧ aesKeyLen keysize = some s.in0.length ∧
      s.aesCommand keysize body = { body { s with engineBusy := true } with engineBusy := false }) := by
  cases h : s.cryptoAllowed
  · exact .inl (State.withEngine_gated_closed h _)
  · have hb := State.withEngine_gated_open h fun s =>
      if aesKeyLen keysize = some s.in0.length then body s else s.fail
    by_cases hk : aesKeyLen keysize = some s.in0.length
    · exact .inr ⟨rfl, hk, hb.trans (by simp only [hk, if_true])⟩
    · exact .inl (hb.trans (by simp only [hk, if_false]; rfl))

/-! The steps of a round -/

@[simp] theorem subBytes_length (st : Bytes) : (subBytes st).length = st.length := by simp [subBytes]

@[simp] theorem invSubBytes_length (st : Bytes) : (invSubBytes st).length = st.length := by simp [invSubBytes]

@[simp] theorem shiftRows_length (st : Bytes) : (shiftRows st).length = 16 := by simp [shiftRows]

@[simp] theorem invShiftRows_length (st : Bytes) : (invShiftRows st).length = 16 := by simp [invShiftRows]

theorem mixWith_length (m0 m1 m2 m3 : Byte) (n : Nat) (st : Bytes) (h : st.length = 4 * n) :
    (mixWith m0 m1 m2 m3 st).length = 4 * n := by
  induction n generalizing st with
  | zero => simp_all [mixWith]
  | succ n ih =>
    match st, h with
    | a0 :: a1 :: a2 :: a3 :: rest, h =>
      have hr : rest.length = 4 * n := by simp only [List.length_cons] at h; omega
      simp only [mixWith, List.length_append, ih rest hr, mixColumn, List.length_cons, List.length_nil]
      omega
    | [], h => simp at h
    | [_], h => simp at h; omega
    | [_, _], h => simp at h; omega
    | [_, _, _], h => simp at h; omega

theorem mixColumns_length {st : Bytes} (h : st.length = 16) : (mixColumns st).length = 16 :=
  mixWith_length _ _ _ _ 4 st h

theorem invMixColumns_length {st : Bytes} (h : st.length = 16) : (invMixColumns st).length = 16 :=
  mixWith_length _ _ _ _ 4 st h

/-! The key expansion (R322) -/

theorem nextKeyWord_length {nk i : Nat} {ws : List Bytes} (hnk : 0 < nk) (hl : nk ≤ ws.length)
    (hw : ∀ w ∈ ws, w.length = 4) : (nextKeyWord nk i ws).length = 4 := by
  have hget : ∀ k, k < ws.length → (ws.getD k []).length = 4 := by
    intro k hk
    rw [List.getD_eq_getElem _ _ hk]
    exact hw _ (List.getElem_mem hk)
  have h0 := hget 0 (by omega)
  have h1 := hget (nk - 1) (by omega)
  simp only [nextKeyWord, xorBytes_length, h1]
  split
  · simp only [xorBytes_length, subBytes_length, rotWord, List.length_append, List.length_drop, List.length_take, h0,
      List.length_cons, List.length_nil]
    decide
  · split <;> simp only [subBytes_length, h0, min_self]

theorem expandKey_spec (nk n i : Nat) (ws : List Bytes) (hnk : 0 < nk) (hl : nk ≤ ws.length)
    (hw : ∀ w ∈ ws, w.length = 4) :
    (expandKey nk n i ws).length = ws.length + n ∧ ∀ w ∈ expandKey nk n i ws, w.length = 4 := by
  induction n generalizing i ws with
  | zero => exact ⟨rfl, hw⟩
  | succ n ih =>
    have h := ih (i + 1) (nextKeyWord nk i ws :: ws) (by simp only [List.length_cons]; omega) (by
      intro w hm
      rcases List.mem_cons.mp hm with rfl | hm
      · exact nextKeyWord_length hnk hl hw
      · exact hw w hm)
    refine ⟨?_, h.2⟩
    show (expandKey nk n (i + 1) (nextKeyWord nk i ws :: ws)).length = _
    rw [h.1, List.length_cons]
    omega

/-- A string of `m` whole pieces is cut into `m` pieces of full length. -/
theorem chunks_whole (n : Nat) (hn : 0 < n) (m : Nat) (s : Bytes) (h : s.length = n * m) :
    (chunks n s).length = m ∧ ∀ b ∈ chunks n s, b.length = n := by
  induction m generalizing s with
  | zero =>
    have : s = [] := by simpa using h
    subst this
    simp
  | succ m ih =>
    have hl : n ≤ s.length := by rw [h]; exact Nat.le_mul_of_pos_right n (by omega)
    have ht : (s.take n).length = n := by simp only [List.length_take]; omega
    have hd : (s.drop n).length = n * m := by simp only [List.length_drop, h, Nat.mul_succ]; omega
    rw [← List.take_append_drop n s, chunks_append n hn _ _ ht]
    have h' := ih _ hd
    refine ⟨by simp only [List.length_cons, h'.1], ?_⟩
    intro b hb
    rcases List.mem_cons.mp hb with rfl | hb
    · exact ht
    · exact h'.2 b hb

theorem flatten_length_const {n : Nat} {bs : List Bytes} (h : ∀ b ∈ bs, b.length = n) :
    bs.flatten.length = n * bs.length := by
  induction bs with
  | nil => simp
  | cons b bs ih =>
    rw [List.flatten_cons, List.length_append, ih fun x hx => h x (by simp [hx]), h b (by simp), List.length_cons,
      Nat.mul_succ]
    omega

/-- `Nr + 1` round keys of 16 bytes (R322). -/
theorem roundKeys_spec {key : Bytes} (h : key.length = 16 ∨ key.length = 24 ∨ key.length = 32) :
    (roundKeys key).length = key.length / 4 + 7 ∧ ∀ rk ∈ roundKeys key, rk.length = 16 := by
  obtain ⟨nk, hk, h4, h8⟩ : ∃ nk, key.length = 4 * nk ∧ 4 ≤ nk ∧ nk ≤ 8 := by
    rcases h with h | h | h
    exacts [⟨4, by omega⟩, ⟨6, by omega⟩, ⟨8, by omega⟩]
  have hdiv : key.length / 4 = nk := by omega
  have hc := chunks_whole 4 (by decide) nk key hk
  have he := expandKey_spec nk (4 * (nk + 7) - nk) nk (chunks 4 key).reverse (by omega)
    (by simp only [List.length_reverse, hc.1]; omega) (fun w hw => hc.2 w (List.mem_reverse.mp hw))
  have hf := flatten_length_const (n := 4)
    (bs := (expandKey nk (4 * (nk + 7) - nk) nk (chunks 4 key).reverse).reverse)
    (fun w hw => he.2 w (List.mem_reverse.mp hw))
  have hfin := chunks_whole 16 (by decide) (nk + 7)
    (expandKey nk (4 * (nk + 7) - nk) nk (chunks 4 key).reverse).reverse.flatten (by
      rw [hf, List.length_reverse, he.1, List.length_reverse, hc.1]; omega)
  simpa [roundKeys, hdiv] using hfin

theorem encryptRounds_length (rks : List Bytes) (st : Bytes) (hr : ∀ rk ∈ rks, rk.length = 16) (hs : st.length = 16) :
    (encryptRounds rks st).length = 16 := by
  induction rks generalizing st with
  | nil => exact hs
  | cons rk rks ih =>
    have h1 := hr rk (by simp)
    cases rks with
    | nil => simp [encryptRounds, h1]
    | cons rk2 rks =>
      exact ih _ (fun x hx => hr x (by simp only [List.mem_cons] at hx ⊢; tauto))
        (by rw [xorBytes_length, mixColumns_length (shiftRows_length _), h1, min_self])

theorem decryptRounds_length (rks : List Bytes) (st : Bytes) (hr : ∀ rk ∈ rks, rk.length = 16) (hs : st.length = 16) :
    (decryptRounds rks st).length = 16 := by
  induction rks generalizing st with
  | nil => exact hs
  | cons rk rks ih =>
    have h1 := hr rk (by simp)
    cases rks with
    | nil => simp [decryptRounds, h1]
    | cons rk2 rks =>
      exact ih _ (fun x hx => hr x (by simp only [List.mem_cons] at hx ⊢; tauto))
        (invMixColumns_length (by simp [h1]))

theorem aesE_length {key block : Bytes} (hk : key.length = 16 ∨ key.length = 24 ∨ key.length = 32)
    (hb : block.length = 16) : (aesE key block).length = 16 := by
  have h := roundKeys_spec hk
  refine encryptRounds_length _ _ (fun rk hrk => h.2 rk (List.mem_of_mem_drop hrk)) ?_
  have h0 : 0 < (roundKeys key).length := by rw [h.1]; omega
  rw [xorBytes_length, List.getD_eq_getElem _ _ h0, h.2 _ (List.getElem_mem h0), hb, min_self]

theorem aesD_length {key block : Bytes} (hk : key.length = 16 ∨ key.length = 24 ∨ key.length = 32)
    (hb : block.length = 16) : (aesD key block).length = 16 := by
  have h := roundKeys_spec hk
  refine decryptRounds_length _ _
    (fun rk hrk => h.2 rk (List.mem_reverse.mp (List.mem_of_mem_drop hrk))) ?_
  have h0 : 0 < (roundKeys key).reverse.length := by rw [List.length_reverse, h.1]; omega
  rw [xorBytes_length, List.getD_eq_getElem _ _ h0,
    h.2 _ (List.mem_reverse.mp (List.getElem_mem h0)), hb, min_self]

end Sys2Proof.Machine
end

