-- ==== Sys2Proof/Laws/Curve.lean ====
section
/-! SUPPORT. The field prime of P-256 is a prime: Pratt's certificate, for the group law of R242 over the field. -/

namespace Sys2Proof.Machine

/-- `a^k mod p` by squaring, for exponents below `2^fuel`: what the kernel evaluates in the certificates. -/
def certPow (p a : Nat) : Nat → Nat → Nat
  | 0, _ => 1 % p
  | fuel + 1, k =>
    match certPow p a fuel (k / 2) with
    | 0 => 0
    | h + 1 => if k % 2 = 1 then (h + 1) * (h + 1) % p * a % p else (h + 1) * (h + 1) % p

theorem certPow_eq (p a : Nat) : ∀ fuel k, k < 2 ^ fuel → certPow p a fuel k = a ^ k % p
  | 0, k, h => by simp [certPow, show k = 0 by simpa using h]
  | fuel + 1, k, h => by
    have ih := certPow_eq p a fuel (k / 2) (by rw [pow_succ] at h; omega)
    have half : a ^ (k / 2) * a ^ (k / 2) = a ^ (k / 2 + k / 2) := (pow_add _ _ _).symm
    have step : certPow p a (fuel + 1) k = if k % 2 = 1 then certPow p a fuel (k / 2) * certPow p a fuel (k / 2) % p * a % p
        else certPow p a fuel (k / 2) * certPow p a fuel (k / 2) % p := by
      rw [certPow]; cases certPow p a fuel (k / 2) <;> simp
    rw [step, ih, ← Nat.mul_mod, half]
    split
    · rw [Nat.mod_mul_mod, ← pow_succ]; congr 2; omega
    · congr 2; omega

/-- Pratt's certificate that `p` is a prime: `qs` are primes with the product `p - 1`, and `a` has the order `p - 1`. -/
theorem prime_of_powers (p a : Nat) (qs : List Nat) (big : 1 < p ∧ p ≤ 2 ^ 256) (prod : qs.prod = p - 1)
    (primes : ∀ q ∈ qs, q.Prime)
    (powers : certPow p a 256 (p - 1) = 1 ∧ ∀ q ∈ qs, certPow p a 256 ((p - 1) / q) ≠ 1) : p.Prime := by
  have key (k : Nat) (h : k ≤ p - 1) : ((a : ZMod p) ^ k = 1) ↔ certPow p a 256 k = 1 := by
    rw [certPow_eq p a 256 k (by omega), ← Nat.cast_pow, ← Nat.cast_one, ZMod.natCast_eq_natCast_iff',
      Nat.mod_eq_of_lt big.1]
  refine lucas_primality p a ((key _ le_rfl).2 powers.1) fun q hq dvd h => ?_
  rw [← prod] at dvd
  obtain ⟨r, hr, qr⟩ := (hq.prime.dvd_prod_iff).1 dvd
  rw [(Nat.prime_dvd_prime_iff_eq hq (primes r hr)).1 qr] at h
  exact powers.2 r hr ((key _ (Nat.div_le_self _ _)).1 h)

theorem prime_6700417 : Nat.Prime 6700417 := by
  refine prime_of_powers _ 5
    [2, 2, 2, 2, 2, 2, 2, 3, 17449]
    (by decide) (by decide) ?_ (by decide +kernel)
  simp only [List.mem_cons, List.not_mem_nil, or_false]
  rintro q (rfl | rfl | rfl | rfl | rfl | rfl | rfl | rfl | rfl)
  all_goals norm_num

theorem prime_204061199 : Nat.Prime 204061199 := by
  refine prime_of_powers _ 11
    [2, 11, 23, 107, 3769]
    (by decide) (by decide) ?_ (by decide +kernel)
  simp only [List.mem_cons, List.not_mem_nil, or_false]
  rintro q (rfl | rfl | rfl | rfl | rfl)
  all_goals norm_num

theorem prime_34282281433 : Nat.Prime 34282281433 := by
  refine prime_of_powers _ 17
    [2, 2, 2, 3, 7, 204061199]
    (by decide) (by decide) ?_ (by decide +kernel)
  simp only [List.mem_cons, List.not_mem_nil, or_false]
  rintro q (rfl | rfl | rfl | rfl | rfl | rfl)
  all_goals first | exact prime_204061199 | norm_num

theorem prime_66417393611 : Nat.Prime 66417393611 := by
  refine prime_of_powers _ 6
    [2, 5, 53, 173, 197, 3677]
    (by decide) (by decide) ?_ (by decide +kernel)
  simp only [List.mem_cons, List.not_mem_nil, or_false]
  rintro q (rfl | rfl | rfl | rfl | rfl | rfl)
  all_goals norm_num

theorem prime_11290956913871 : Nat.Prime 11290956913871 := by
  refine prime_of_powers _ 13
    [2, 5, 17, 66417393611]
    (by decide) (by decide) ?_ (by decide +kernel)
  simp only [List.mem_cons, List.not_mem_nil, or_false]
  rintro q (rfl | rfl | rfl | rfl)
  all_goals first | exact prime_66417393611 | norm_num

theorem prime_46076956964474543 : Nat.Prime 46076956964474543 := by
  refine prime_of_powers _ 5
    [2, 23, 18169, 78283, 704251]
    (by decide) (by decide) ?_ (by decide +kernel)
  simp only [List.mem_cons, List.not_mem_nil, or_false]
  rintro q (rfl | rfl | rfl | rfl | rfl)
  all_goals norm_num

theorem prime_774023187263532362759620327192479577272145303 : Nat.Prime 774023187263532362759620327192479577272145303 := by
  refine prime_of_powers _ 3
    [2, 3, 3, 2411, 34282281433, 11290956913871, 46076956964474543]
    (by decide) (by decide) ?_ (by decide +kernel)
  simp only [List.mem_cons, List.not_mem_nil, or_false]
  rintro q (rfl | rfl | rfl | rfl | rfl | rfl | rfl)
  all_goals first | exact prime_34282281433 | exact prime_11290956913871 | exact prime_46076956964474543 | norm_num

theorem prime_835945042244614951780389953367877943453916927241 : Nat.Prime 835945042244614951780389953367877943453916927241 := by
  refine prime_of_powers _ 11
    [2, 2, 2, 3, 3, 3, 5, 774023187263532362759620327192479577272145303]
    (by decide) (by decide) ?_ (by decide +kernel)
  simp only [List.mem_cons, List.not_mem_nil, or_false]
  rintro q (rfl | rfl | rfl | rfl | rfl | rfl | rfl | rfl)
  all_goals first | exact prime_774023187263532362759620327192479577272145303 | norm_num

theorem p256P_prime : Nat.Prime p256P := by
  unfold p256P
  refine prime_of_powers _ 6
    [2, 3, 5, 5, 17, 257, 641, 1531, 65537, 490463, 6700417, 835945042244614951780389953367877943453916927241]
    (by decide) (by decide) ?_ (by decide +kernel)
  simp only [List.mem_cons, List.not_mem_nil, or_false]
  rintro q (rfl | rfl | rfl | rfl | rfl | rfl | rfl | rfl | rfl | rfl | rfl | rfl)
  all_goals first | exact prime_6700417 | exact prime_835945042244614951780389953367877943453916927241 | norm_num

end Sys2Proof.Machine
end

