-- ==== Sys2Proof/Laws/Hash.lean ====
section
/-! SUPPORT. The hash functions: lengths, that compression stays in its core, how the absorbing loop cuts its input, and
what `HMAC_INIT` and `HASH_INIT` share. -/

namespace Sys2Proof.Machine

theorem HashAlg.blockBytes_pos (a : HashAlg) : 0 < a.blockBytes := by cases a <;> decide

theorem HashAlg.digestBytes_le (a : HashAlg) : a.digestBytes ≤ a.blockBytes := by cases a <;> decide

/-! State words -/

theorem HashAlg.iv_hasWords (a : HashAlg) : a.hasWords a.iv = true := by cases a <;> rfl

/-- A block changes the state words and not the core they belong to (R147). -/
theorem compress_hasWords (a : HashAlg) (h : HashWords) (block : Bytes) :
    a.hasWords (compress h block) = a.hasWords h := by
  cases a <;> cases h <;> simp only [compress, HashAlg.hasWords]

theorem foldl_compress_hasWords (a : HashAlg) (blocks : List Bytes) (h : HashWords) :
    a.hasWords (blocks.foldl compress h) = a.hasWords h := by
  induction blocks generalizing h with
  | nil => rfl
  | cons b bs ih => rw [List.foldl_cons, ih, compress_hasWords]

theorem HashWords.digest_le_bytes {a : HashAlg} {h : HashWords} (hw : a.hasWords h = true) :
    a.digestBytes ≤ h.bytes.length := by
  cases a <;> cases h <;> simp_all [HashAlg.hasWords, HashAlg.digestBytes, HashWords.bytes]

/-- A digest has `DIGEST_BYTES` bytes (R141, R147). -/
theorem digestOf_length {a : HashAlg} {h : HashWords} (hw : a.hasWords h = true) :
    (digestOf a h).length = a.digestBytes := by
  simp [digestOf, HashWords.digest_le_bytes hw]

@[simp] theorem hash_length (a : HashAlg) (m : Bytes) : (hash a m).length = a.digestBytes :=
  digestOf_length (by rw [foldl_compress_hasWords, HashAlg.iv_hasWords])

@[simp] theorem hmac_length (a : HashAlg) (key m : Bytes) : (hmac a key m).length = a.digestBytes := by simp [hmac]

/-! Padding (R143) -/

theorem hashPadding_length (a : HashAlg) (len : Nat) :
    (hashPadding a len).length =
      1 + (a.blockBytes - (len + 1 + a.lengthBytes) % a.blockBytes) % a.blockBytes + a.lengthBytes := by
  simp [hashPadding]; omega

/-- A padded message is a whole number of blocks. -/
theorem hashPadding_whole (a : HashAlg) (len : Nat) : (len + (hashPadding a len).length) % a.blockBytes = 0 := by
  rw [hashPadding_length]
  cases a <;> simp only [HashAlg.blockBytes, HashAlg.lengthBytes] <;> omega

/-! Absorbing (R151) -/

/-- The loop compresses whole blocks off the front and stops with less than one block. -/
theorem absorbBlocks_spec (b : Nat) (hb : 0 < b) (fuel : Nat) (h : HashWords) (t : Bytes) (hf : t.length ≤ fuel) :
    ∃ blocks : List Bytes, t = blocks.flatten ++ (absorbBlocks b fuel h t).2 ∧ (∀ x ∈ blocks, x.length = b) ∧
      (absorbBlocks b fuel h t).2.length < b ∧ (absorbBlocks b fuel h t).1 = blocks.foldl compress h := by
  induction fuel generalizing h t with
  | zero => exact ⟨[], by simp [absorbBlocks], by simp, by simp [absorbBlocks]; omega, rfl⟩
  | succ fuel ih =>
    unfold absorbBlocks
    split
    · next hl => exact ⟨[], by simp, by simp, hl, rfl⟩
    · next hl =>
      obtain ⟨blocks, h1, h2, h3, h4⟩ :=
        ih (compress h (t.take b)) (t.drop b) (by simp only [List.length_drop]; omega)
      refine ⟨t.take b :: blocks, ?_, ?_, h3, by rw [h4, List.foldl_cons]⟩
      · rw [List.flatten_cons, List.append_assoc, ← h1, List.take_append_drop]
      · intro x hx
        rcases List.mem_cons.mp hx with rfl | hx
        · simp only [List.length_take]; omega
        · exact h2 x hx

theorem absorbBlocks_hasWords (a : HashAlg) (b fuel : Nat) (h : HashWords) (t : Bytes) :
    a.hasWords (absorbBlocks b fuel h t).1 = a.hasWords h := by
  induction fuel generalizing h t with
  | zero => rfl
  | succ fuel ih =>
    unfold absorbBlocks
    split
    · rfl
    · rw [ih, compress_hasWords]

@[simp] theorem HashCtx.absorb_alg (c : HashCtx) (data : Bytes) : (c.absorb data).alg = c.alg := rfl

@[simp] theorem HashCtx.absorb_count (c : HashCtx) (data : Bytes) : (c.absorb data).count = c.count + data.length := rfl

@[simp] theorem HashCtx.absorb_phase (c : HashCtx) (data : Bytes) : (c.absorb data).phase = c.phase := rfl

@[simp] theorem HashCtx.absorb_path (c : HashCtx) (data : Bytes) : (c.absorb data).path = c.path := rfl

@[simp] theorem HashCtx.absorb_digest (c : HashCtx) (data : Bytes) : (c.absorb data).digest = c.digest := rfl

@[simp] theorem HashCtx.finalize_alg (c : HashCtx) (d : Bytes) : (c.finalize d).alg = c.alg := rfl

@[simp] theorem HashCtx.finalize_count (c : HashCtx) (d : Bytes) : (c.finalize d).count = c.count := rfl

@[simp] theorem HashCtx.finalize_buf (c : HashCtx) (d : Bytes) : (c.finalize d).buf = [] := rfl

@[simp] theorem HashCtx.finalize_phase (c : HashCtx) (d : Bytes) : (c.finalize d).phase = .finalized := rfl

@[simp] theorem HashCtx.finalize_digest (c : HashCtx) (d : Bytes) : (c.finalize d).digest = d := rfl

@[simp] theorem HashCtx.finalize_path (c : HashCtx) (d : Bytes) : (c.finalize d).path = c.path := rfl

/-- The checks of an update, as a proposition (R151, R155, R173). -/
theorem HashCtx.canAbsorb_iff (c : HashCtx) (data : Bytes) :
    c.canAbsorb data = true ↔ c.phase = .active ∧ c.count + data.length < 2 ^ 61 := by
  unfold HashCtx.canAbsorb countLimit
  rw [Bool.and_eq_true, beq_iff_eq, decide_eq_true_iff]

/-! The path choice (R150, R172) -/

/-- What the choice of the path answers: `HW` takes the hardware, `SW` gives a grab of the slot itself back. -/
theorem State.grabPath_spec {s : State} {i : BitVec 4} {sel : PathSel} {p : HashPath} {owner : Option (BitVec 4)}
    (h : s.grabPath i sel = some (p, owner)) :
    (p = .hw ∧ owner = some i ∧ sel ≠ .sw ∧ (s.shaHwOwner = none ∨ s.shaHwOwner = some i)) ∨
      (p = .sw ∧ owner = (if s.shaHwOwner = some i then none else s.shaHwOwner)) := by
  unfold State.grabPath at h
  by_cases ho : s.shaHwOwner = some i
  · cases sel <;> simp [ho] at h <;> obtain ⟨rfl, rfl⟩ := h <;> simp [ho]
  · by_cases hn : s.shaHwOwner = none
    · cases sel <;> simp [hn] at h <;> obtain ⟨rfl, rfl⟩ := h <;> simp [hn]
    · cases sel <;> simp [ho, hn] at h <;> obtain ⟨rfl, rfl⟩ := h <;> simp [ho]

/-- Everything an init command can do: fail, or put a context into its slot (R150, R172). -/
theorem State.initContext_cases (s : State) (alg i : BitVec 4) (path : BitVec 2)
    (make : HashAlg → HashPath → CtxSlot) :
    s.initContext alg i path make = s.ret .fail [] [] ∨
    ∃ sel a p owner, pathOfBits path = some sel ∧ hashOfTag alg = some a ∧ s.cryptoAllowed = true ∧
      i.toNat < s.cfg.nCtx ∧ s.grabPath i sel = some (p, owner) ∧
      s.initContext alg i path make = ({ s with shaHwOwner := owner }.setCtx i (make a p)).ret .ok [] [] := by
  unfold State.initContext
  split
  · exact .inl rfl
  · next sel hsel =>
    unfold State.gated
    split
    · next hg =>
      beta_reduce
      split
      · next a hs ha =>
        split
        · exact .inl rfl
        · next p owner hp => exact .inr ⟨sel, a, p, owner, hsel, ha, hg, by simpa [State.isCtxSlot] using hs, hp, rfl⟩
      · exact .inl rfl
    · exact .inl rfl

end Sys2Proof.Machine
end

