-- ==== Sys2Proof/Laws/Trng.lean ====
section
/-! SUPPORT. The TRNG layer: the run counter over streams, the window, and one frame for everything that asks the noise
source: it changes the TRNG record, the error bits with the persisted flag, and the noise to come, and nothing else. -/

namespace Sys2Proof.Machine

@[simp] theorem samplesOf_length (w : Word) : (samplesOf w).length = 32 := by simp [samplesOf]

/-- A stream of samples may be tested in pieces (R192). -/
theorem Trng.runTest_append (t : Trng) (as bs : List Bool) :
    t.runTest (as ++ bs) = (((t.runTest as).1.runTest bs).1, (t.runTest as).2 || ((t.runTest as).1.runTest bs).2) := by
  induction as generalizing t with
  | nil => simp [Trng.runTest]
  | cons a as ih => simp [Trng.runTest, ih, Bool.or_assoc]

/-- The run counter touches nothing else of the record. -/
theorem Trng.runTest_frame (t : Trng) (bs : List Bool) :
    (t.runTest bs).1 = { t with runBit := (t.runTest bs).1.runBit, runLen := (t.runTest bs).1.runLen } := by
  induction bs generalizing t with
  | nil => rfl
  | cons b bs ih =>
    have hs : (t.sample b).window = t.window ∧ (t.sample b).healthy = t.healthy ∧ (t.sample b).failed = t.failed := by
      unfold Trng.sample; split <;> exact ⟨rfl, rfl, rfl⟩
    show ((t.sample b).runTest bs).1 = _
    rw [ih (t.sample b)]
    simp [Trng.runTest, hs]

/-- Every sample adds at most 1 to the run length (R192). -/
theorem Trng.runTest_runLen_le (t : Trng) (bs : List Bool) : (t.runTest bs).1.runLen ≤ t.runLen + bs.length := by
  induction bs generalizing t with
  | nil => exact Nat.le_refl _
  | cons b bs ih =>
    have step : (t.sample b).runLen ≤ t.runLen + 1 := by
      unfold Trng.sample
      split <;> simp
    have := ih (t.sample b)
    simp only [Trng.runTest, List.length_cons]
    omega

/-- The counter is never above the cutoff (R401), it stands there exactly where the test of R192 fails, and below it is the run
length. -/
theorem Trng.runCounter_spec (t : Trng) : t.runCounter ≤ 52 ∧ (t.runCounter = 52 ↔ Config.rctCutoff ≤ t.runLen) ∧
    (t.runLen < Config.rctCutoff → t.runCounter = t.runLen) := by
  simp only [Trng.runCounter, Config.rctCutoff]
  omega

/-- Without a failing sample the run stays below the cutoff, if it was below it before (R192). -/
theorem Trng.runTest_runLen (t : Trng) (bs : List Bool) (h : t.runLen < Config.rctCutoff)
    (hok : (t.runTest bs).2 = false) : (t.runTest bs).1.runLen < Config.rctCutoff := by
  induction bs generalizing t with
  | nil => exact h
  | cons b bs ih =>
    simp only [Trng.runTest, Bool.or_eq_false_iff, decide_eq_false_iff_not, not_le, ge_iff_le] at hok ⊢
    exact ih (t.sample b) hok.1 hok.2

/-- The window never holds more than 32 words (R193). -/
theorem slideWindow_length (ws : List Word) (w : Word) (h : ws.length ≤ 32) :
    (slideWindow ws w).length = min 32 (ws.length + 1) := by
  unfold slideWindow
  simp only [Config.aptWindowWords, List.length_append, List.length_singleton]
  split
  · simp; omega
  · simp; omega

/-! The health step (R194) -/

/-- What a health step does: good and only the record changed, or bad, latched, with the bits of the failed tests. -/
theorem State.health_cases (s : State) (w : Word) :
    let run := s.trng.runTest (samplesOf w)
    let window := slideWindow s.trng.window w
    let rctFail := run.2 || s.injected errTrngRct
    let aptFail := proportionFails window || s.injected errTrngApt
    (rctFail = false ∧ aptFail = false ∧ s.health w = (true, { s with trng := { run.1 with window := window } })) ∨
    ((rctFail = true ∨ aptFail = true) ∧ s.health w =
      (false, ({ s with trng := { run.1 with window := window, failed := true, healthy := false } }).raiseFatal
        (healthBits rctFail aptFail))) := by
  simp only [State.health]
  cases hr : ((s.trng.runTest (samplesOf w)).2 || s.injected errTrngRct) <;>
    cases ha : (proportionFails (slideWindow s.trng.window w) || s.injected errTrngApt) <;> simp

/-- The part of the state that asking the noise source can change. -/
def State.SameButNoise (s t : State) : Prop :=
  t = { s with
    trng := t.trng, fipsStatus := t.fipsStatus, pwrupDonePersist := t.pwrupDonePersist,
    env := { s.env with noise := t.env.noise, noiseCount := t.env.noiseCount } }

theorem State.SameButNoise.refl (s : State) : s.SameButNoise s := rfl

theorem State.SameButNoise.trans {s t u : State} (h : s.SameButNoise t) (h' : t.SameButNoise u) : s.SameButNoise u := by
  unfold State.SameButNoise at *
  rw [h'] ; rw [h]

theorem State.noiseWord_frame (s : State) : s.SameButNoise s.noiseWord.2 := rfl

theorem State.health_frame (s : State) (w : Word) : s.SameButNoise (s.health w).2 := by
  rcases State.health_cases s w with ⟨-, -, h⟩ | ⟨-, h⟩ <;> rw [h] <;> rfl

theorem State.startupLoop_frame (n : Nat) (s : State) : s.SameButNoise (State.startupLoop n s).2 := by
  induction n generalizing s with
  | zero => exact .refl s
  | succ n ih =>
    have h := (State.noiseWord_frame s).trans (State.health_frame s.noiseWord.2 s.noiseWord.1)
    simp only [State.startupLoop]
    split
    · next s2 h2 => rw [h2] at h; exact h
    · next s2 h2 => rw [h2] at h; exact h.trans (ih s2)

theorem State.trngStartup_frame (s : State) : s.SameButNoise s.trngStartup.2 := by
  unfold State.trngStartup
  split
  · exact .refl s
  · next hc =>
    have hl := State.startupLoop_frame Config.startupWords
      { s with trng := { s.trng with runBit := none, runLen := 0, window := [], healthy := false } }
    have h0 : s.SameButNoise
        { s with trng := { s.trng with runBit := none, runLen := 0, window := [], healthy := false } } := rfl
    simp only
    split
    · next s1 h1 => rw [h1] at hl; exact h0.trans hl
    · next s1 h1 =>
      rw [h1] at hl
      exact (h0.trans hl).trans rfl

theorem State.trngWord_frame (s : State) : s.SameButNoise s.trngWord.2 := by
  unfold State.trngWord
  split
  · exact .refl s
  · have h := (State.noiseWord_frame s).trans (State.health_frame s.noiseWord.2 s.noiseWord.1)
    simp only
    split
    · next s2 h2 => rw [h2] at h; exact h
    · next s2 h2 => rw [h2] at h; exact h

theorem State.trngWordBytes_frame (n : Nat) (s : State) : s.SameButNoise (State.trngWordBytes n s).2 := by
  induction n generalizing s with
  | zero => exact .refl s
  | succ n ih =>
    have h := State.trngWord_frame s
    simp only [State.trngWordBytes]
    split
    · next s1 h1 => rw [h1] at h; exact h
    · next w s1 h1 =>
      rw [h1] at h
      have h' := h.trans (ih s1)
      split
      · next s2 h2 => rw [h2] at h'; exact h'
      · next rest s2 h2 => rw [h2] at h'; exact h'

theorem State.trngBytes_frame (s : State) (n : Nat) : s.SameButNoise (s.trngBytes n).2 := by
  have h := State.trngWordBytes_frame ((n + 3) / 4) s
  unfold State.trngBytes
  split
  · next s1 h1 => rw [h1] at h; exact h
  · next b s1 h1 => rw [h1] at h; exact h

/-- A delivered word was asked for and passed its health step (R198). -/
theorem State.trngWord_some {s s' : State} {w : Word} (h : s.trngWord = (some w, s')) :
    s.trng.failed = false ∧ s.trng.healthy = true ∧ w = s.env.nextNoise ∧
      (s.noiseWord.2).health s.env.nextNoise = (true, s') := by
  unfold State.trngWord at h
  split at h
  · simp at h
  · next hc =>
    simp only at h
    split at h
    · simp at h
    · next s2 h2 =>
      simp only [Prod.mk.injEq, Option.some.injEq] at h
      obtain ⟨rfl, rfl⟩ := h
      simp only [Bool.or_eq_true, Bool.not_eq_true', not_or, Bool.not_eq_true, Bool.not_eq_false] at hc
      exact ⟨hc.1, hc.2, rfl, h2⟩

theorem State.trngWordBytes_length {n : Nat} {s s' : State} {b : Bytes} (h : State.trngWordBytes n s = (some b, s')) :
    b.length = 4 * n := by
  induction n generalizing s b with
  | zero => simp only [State.trngWordBytes, Prod.mk.injEq, Option.some.injEq] at h; simp [← h.1]
  | succ n ih =>
    simp only [State.trngWordBytes] at h
    split at h
    · simp at h
    · next w s1 h1 =>
      split at h
      · simp at h
      · next rest s2 h2 =>
        simp only [Prod.mk.injEq, Option.some.injEq] at h
        obtain ⟨rfl, rfl⟩ := h
        have hw : (wordBytes w).length = 4 := rfl
        have hr : rest.length = 4 * n := ih h2
        rw [List.length_append]
        omega

/-- `trng_bytes(n)` delivers `n` bytes or none (R199). -/
theorem State.trngBytes_length {n : Nat} {s s' : State} {b : Bytes} (h : s.trngBytes n = (some b, s')) :
    b.length = n := by
  unfold State.trngBytes at h
  split at h
  · simp at h
  · next bytes s1 h1 =>
    simp only [Prod.mk.injEq, Option.some.injEq] at h
    rw [← h.1, List.length_take, State.trngWordBytes_length h1]
    omega

end Sys2Proof.Machine
end

