-- ==== Sys2Proof/Laws/Drbg.lean ====
section
/-! SUPPORT. The HMAC-DRBG: lengths, what each function leaves of an instance, and everything `drbg_generate`, the lazy
instantiation of the singleton and the loop of `RAND_BYTES` can do to the state. -/

namespace Sys2Proof.Machine

@[simp] theorem drbgHmac_length (k m : Bytes) : (drbgHmac k m).length = 32 := by
  simp [drbgHmac, HashAlg.digestBytes]

/-! `Update` (R211) and its halves -/

theorem Drbg.updateHalf_k (d : Drbg) (tag : Byte) (pd : Bytes) :
    (d.updateHalf tag pd).k = drbgHmac d.k (d.v ++ tag :: pd) := by
  simp only [Drbg.updateHalf]

theorem Drbg.updateHalf_v (d : Drbg) (tag : Byte) (pd : Bytes) :
    (d.updateHalf tag pd).v = drbgHmac (d.updateHalf tag pd).k d.v := by
  simp only [Drbg.updateHalf]

@[simp] theorem Drbg.updateHalf_reseedCounter (d : Drbg) (tag : Byte) (pd : Bytes) :
    (d.updateHalf tag pd).reseedCounter = d.reseedCounter := rfl

@[simp] theorem Drbg.updateHalf_reseedThreshold (d : Drbg) (tag : Byte) (pd : Bytes) :
    (d.updateHalf tag pd).reseedThreshold = d.reseedThreshold := rfl

@[simp] theorem Drbg.updateHalf_cookie (d : Drbg) (tag : Byte) (pd : Bytes) :
    (d.updateHalf tag pd).cookie = d.cookie := rfl

@[simp] theorem Drbg.update_reseedCounter (d : Drbg) (pd : Bytes) : (d.update pd).reseedCounter = d.reseedCounter := by
  unfold Drbg.update; split <;> simp

@[simp] theorem Drbg.update_reseedThreshold (d : Drbg) (pd : Bytes) :
    (d.update pd).reseedThreshold = d.reseedThreshold := by
  unfold Drbg.update; split <;> simp

@[simp] theorem Drbg.update_cookie (d : Drbg) (pd : Bytes) : (d.update pd).cookie = d.cookie := by
  unfold Drbg.update; split <;> simp

/-- `Update` writes `K` and `V` of 32 bytes each. -/
theorem Drbg.update_lengths (d : Drbg) (pd : Bytes) : (d.update pd).k.length = 32 ∧ (d.update pd).v.length = 32 := by
  unfold Drbg.update
  split <;> simp [Drbg.updateHalf_k, Drbg.updateHalf_v]

@[simp] theorem Drbg.reseed_reseedCounter (d : Drbg) (seed : Bytes) : (d.reseed seed).reseedCounter = 1 := rfl

@[simp] theorem Drbg.reseed_reseedThreshold (d : Drbg) (seed : Bytes) :
    (d.reseed seed).reseedThreshold = d.reseedThreshold := d.update_reseedThreshold seed

@[simp] theorem Drbg.reseed_cookie (d : Drbg) (seed : Bytes) : (d.reseed seed).cookie = d.cookie := d.update_cookie seed

@[simp] theorem Drbg.instantiate_reseedCounter (seed : Bytes) (threshold : Word) :
    (Drbg.instantiate seed threshold).reseedCounter = 1 := by
  simp [Drbg.instantiate, Drbg.start]

@[simp] theorem Drbg.instantiate_reseedThreshold (seed : Bytes) (threshold : Word) :
    (Drbg.instantiate seed threshold).reseedThreshold = threshold := by
  simp [Drbg.instantiate, Drbg.start]

@[simp] theorem Drbg.instantiate_cookie (seed : Bytes) (threshold : Word) :
    (Drbg.instantiate seed threshold).cookie = .valid := by
  simp [Drbg.instantiate, Drbg.start]

/-- The output loop makes 32 bytes a turn (R216). -/
theorem drbgBlocks_length (k : Bytes) (n : Nat) (v : Bytes) : (drbgBlocks k n v).1.length = 32 * n := by
  induction n generalizing v with
  | zero => rfl
  | succ n ih =>
    simp only [drbgBlocks, List.length_append, drbgHmac_length, ih]
    omega

/-- One generate call: `n` bytes, an instance with `K` and `V` of 32 bytes, the counter up by one (R216). -/
theorem Drbg.produce_spec (d : Drbg) (n : Nat) (addl : Bytes) :
    (d.produce n addl).1.length = n ∧ (d.produce n addl).2.k.length = 32 ∧ (d.produce n addl).2.v.length = 32 ∧
      (d.produce n addl).2.reseedCounter = d.reseedCounter + 1 ∧
      (d.produce n addl).2.reseedThreshold = d.reseedThreshold ∧ (d.produce n addl).2.cookie = d.cookie := by
  have hc : (if addl.length > 0 then d.update addl else d).reseedCounter = d.reseedCounter := by split <;> simp
  have ht : (if addl.length > 0 then d.update addl else d).reseedThreshold = d.reseedThreshold := by split <;> simp
  have hk : (if addl.length > 0 then d.update addl else d).cookie = d.cookie := by split <;> simp
  refine ⟨?_, (Drbg.update_lengths _ addl).1, (Drbg.update_lengths _ addl).2, ?_, ?_, ?_⟩
  · simp only [Drbg.produce, List.length_take, drbgBlocks_length]; omega
  · simp only [Drbg.produce, Drbg.update_reseedCounter, hc]
  · simp only [Drbg.produce, Drbg.update_reseedThreshold, ht]
  · simp only [Drbg.produce, Drbg.update_cookie, hk]

/-- The first three tests of `drbg_generate` let a call go on (R216). -/
theorem Drbg.refuses_eq_none {d : Drbg} {sentinel : Word} {n : Nat} :
    d.refuses sentinel n = none ↔ d.cookie = .valid ∧ n ≤ 937 ∧ d.reseedCounter ≠ sentinel := by
  unfold Drbg.refuses Config.drbgMaxOut
  by_cases h1 : d.cookie = .valid
  · rcases Nat.lt_or_ge 937 n with h2 | h2
    · simp [h1, h2, Nat.not_le.mpr h2]
    · by_cases h3 : d.reseedCounter = sentinel <;> simp [h1, h2, h3, Nat.not_lt.mpr h2]
  · simp [h1]

/-- Everything `drbg_generate` can do (R216, R217): refuse and change nothing; answer from the instance as it is; fail for want
of entropy; answer from the reseeded instance. -/
theorem State.drbgGenerate_cases (s : State) (i : BitVec 4) (n : Nat) (addl : Bytes) :
    (∃ code, (s.drbgAt i).refuses s.cfg.noAutoReseed n = some code ∧ s.drbgGenerate i n addl = (code, [], s)) ∨
    ((s.drbgAt i).refuses s.cfg.noAutoReseed n = none ∧ (s.drbgAt i).reseedDue = false ∧
      s.drbgGenerate i n addl =
        (.ok, ((s.drbgAt i).produce n addl).1, s.setDrbg i ((s.drbgAt i).produce n addl).2)) ∨
    ((s.drbgAt i).refuses s.cfg.noAutoReseed n = none ∧ (s.drbgAt i).reseedDue = true ∧
      ∃ s1, s.trngBytes s.cfg.entropyBytes = (none, s1) ∧ s.drbgGenerate i n addl = (.fail, [], s1)) ∨
    ((s.drbgAt i).refuses s.cfg.noAutoReseed n = none ∧ (s.drbgAt i).reseedDue = true ∧
      ∃ e s1, s.trngBytes s.cfg.entropyBytes = (some e, s1) ∧ s.drbgGenerate i n addl =
        (.ok, (((s.drbgAt i).reseed e).produce n []).1, s1.setDrbg i (((s.drbgAt i).reseed e).produce n []).2)) := by
  cases hr : (s.drbgAt i).refuses s.cfg.noAutoReseed n with
  | some code => exact .inl ⟨code, rfl, by simp [State.drbgGenerate, hr]⟩
  | none =>
    cases hd : (s.drbgAt i).reseedDue with
    | false => exact .inr (.inl ⟨rfl, rfl, by simp [State.drbgGenerate, hr, hd]⟩)
    | true =>
      rcases ht : s.trngBytes s.cfg.entropyBytes with ⟨_ | e, s1⟩
      · exact .inr (.inr (.inl ⟨rfl, rfl, s1, rfl, by simp [State.drbgGenerate, hr, hd, ht]⟩))
      · exact .inr (.inr (.inr ⟨rfl, rfl, e, s1, rfl, by simp [State.drbgGenerate, hr, hd, ht]⟩))

/-- The part of the state that generating from slot `i` can change: what asking the noise source can, and the slot. -/
def State.SameButDrbg (i : BitVec 4) (s t : State) : Prop :=
  t = { s with
    trng := t.trng, fipsStatus := t.fipsStatus, pwrupDonePersist := t.pwrupDonePersist, drbg := t.drbg,
    env := { s.env with noise := t.env.noise, noiseCount := t.env.noiseCount } } ∧
  ∀ j, j ≠ i → t.drbgAt j = s.drbgAt j

theorem State.SameButDrbg.refl (i : BitVec 4) (s : State) : State.SameButDrbg i s s := ⟨rfl, fun _ _ => rfl⟩

theorem State.SameButDrbg.trans {i : BitVec 4} {s t u : State} (h : State.SameButDrbg i s t)
    (h' : State.SameButDrbg i t u) : State.SameButDrbg i s u :=
  ⟨by rw [h'.1, h.1], fun j hj => (h'.2 j hj).trans (h.2 j hj)⟩

theorem State.SameButNoise.toDrbg {s t : State} (h : s.SameButNoise t) (i : BitVec 4) : State.SameButDrbg i s t := by
  unfold State.SameButNoise at h
  refine ⟨?_, fun j _ => by rw [h]; rfl⟩
  rw [h]

theorem State.SameButDrbg.setDrbg {i : BitVec 4} {s t : State} (h : State.SameButDrbg i s t) (d : Drbg) :
    State.SameButDrbg i s (t.setDrbg i d) :=
  ⟨by conv_lhs => rw [h.1]
      rfl,
    fun j hj => (State.drbgAt_setDrbg_ne t d hj).trans (h.2 j hj)⟩

theorem State.drbgGenerate_frame (s : State) (i : BitVec 4) (n : Nat) (addl : Bytes) :
    State.SameButDrbg i s (s.drbgGenerate i n addl).2.2 := by
  rcases State.drbgGenerate_cases s i n addl with
    ⟨_, -, h⟩ | ⟨-, -, h⟩ | ⟨-, -, s1, ht, h⟩ | ⟨-, -, e, s1, ht, h⟩ <;> rw [h]
  · exact .refl i s
  · exact (State.SameButDrbg.refl i s).setDrbg _
  · have hf := State.trngBytes_frame s s.cfg.entropyBytes
    rw [ht] at hf
    exact hf.toDrbg i
  · have hf := State.trngBytes_frame s s.cfg.entropyBytes
    rw [ht] at hf
    exact (hf.toDrbg i).setDrbg _

/-- The lazy instantiation: nothing to do, no entropy, or a fresh instance from the two strings (R222). -/
theorem State.ensureSingleton_cases (s : State) :
    ((s.drbgAt 0).cookie = .valid ∧ s.ensureSingleton = (true, s)) ∨
    ((s.drbgAt 0).cookie = .invalid ∧
      ((∃ s1, s.SameButNoise s1 ∧ s.ensureSingleton = (false, s1)) ∨
      ∃ e s1 m s2, s.trngBytes s.cfg.entropyBytes = (some e, s1) ∧ s1.trngBytes s.cfg.nonceBytes = (some m, s2) ∧
        s.ensureSingleton = (true, s2.setDrbg 0 (Drbg.instantiate (e ++ m) s.cfg.defaultThreshold)))) := by
  unfold State.ensureSingleton
  cases hc : (s.drbgAt 0).cookie with
  | valid => exact .inl ⟨rfl, by simp⟩
  | invalid =>
    refine .inr ⟨rfl, ?_⟩
    have hf := State.trngBytes_frame s s.cfg.entropyBytes
    rcases he : s.trngBytes s.cfg.entropyBytes with ⟨_ | e, s1⟩
    · rw [he] at hf
      exact .inl ⟨s1, hf, by simp⟩
    · rw [he] at hf
      have hf2 := State.trngBytes_frame s1 s.cfg.nonceBytes
      rcases hm : s1.trngBytes s.cfg.nonceBytes with ⟨_ | m, s2⟩
      · rw [hm] at hf2
        exact .inl ⟨s2, hf.trans hf2, by simp [hm]⟩
      · rw [hm] at hf2
        exact .inr ⟨e, s1, m, s2, rfl, hm, by simp [hm]⟩

theorem State.ensureSingleton_frame (s : State) : State.SameButDrbg 0 s s.ensureSingleton.2 := by
  rcases State.ensureSingleton_cases s with ⟨-, h⟩ | ⟨-, ⟨s1, hf, h⟩ | ⟨e, s1, m, s2, he, hm, h⟩⟩ <;> rw [h]
  · exact .refl 0 s
  · exact hf.toDrbg 0
  · have hf := State.trngBytes_frame s s.cfg.entropyBytes
    have hf2 := State.trngBytes_frame s1 s.cfg.nonceBytes
    rw [he] at hf
    rw [hm] at hf2
    exact ((hf.trans hf2).toDrbg 0).setDrbg _

theorem State.randLoop_frame (fuel rest : Nat) (out : Bytes) (s : State) :
    State.SameButDrbg 0 s (State.randLoop fuel rest out s).2.2 := by
  induction fuel generalizing rest out s with
  | zero => exact .refl 0 s
  | succ fuel ih =>
    unfold State.randLoop
    split
    · exact .refl 0 s
    · have h := State.drbgGenerate_frame s 0 (min Config.drbgMaxOut rest) []
      split
      · next part s1 h1 => rw [h1] at h; exact h.trans (ih _ _ s1)
      · next code x s1 hx h1 => rw [h1] at h; exact h

end Sys2Proof.Machine
end

