-- ==== Sys2Proof/Laws/Numbers.lean ====
section
/-! SUPPORT. The masked scalars and exponents (R244, R282), the key predicate of R280, the lengths of the RSA paddings, and
the frames of the RSA and P256 commands. -/

namespace Sys2Proof.Machine

/-! Masks -/

/-- A mask taken off again leaves the secret as it was (R244, R282). -/
@[simp] theorem unmask_eq (v mask : Nat) : unmask v mask = v := by simp [unmask]

@[simp] theorem blindedPointMul_eq (mask k : Nat) (q : Point) : blindedPointMul mask k q = pointMul k q := by
  simp [blindedPointMul]

/-- The three blinding values have no effect on a signature (R244). -/
@[simp] theorem signRawMasked_eq (m1 m2 m3 k d e : Nat) : signRawMasked m1 m2 m3 k d e = signRaw k d e := by
  simp [signRaw, signRawMasked]

theorem State.blindMul_eq (s : State) (k : Nat) (q : Point) :
    s.blindMul k q = (pointMul k q, { s with env := s.env.afterDraw }) := by
  simp [State.blindMul, State.draw]

theorem State.signRawBlinded_eq (s : State) (k d e : Nat) :
    s.signRawBlinded k d e = (signRaw k d e, { s with env := s.env.afterDraw.afterDraw.afterDraw }) := by
  simp [State.signRawBlinded, State.draw]

/-! The frames of the commands that hold the engine lock (R84) -/

/-- Everything an RSA command can do: fail at the gate, or run its body with the lock taken and released. -/
theorem State.rsaCommand_cases (s : State) (body : State → State) :
    (s.cryptoAllowed = false ∧ s.rsaCommand body = { s.ret .fail [] [] with engineBusy := false }) ∨
    (s.cryptoAllowed = true ∧
      s.rsaCommand body = { body { s with engineBusy := true } with engineBusy := false }) := by
  cases h : s.cryptoAllowed
  · exact .inl ⟨rfl, State.withEngine_gated_closed h body⟩
  · exact .inr ⟨rfl, State.withEngine_gated_open h body⟩

/-- The same for a P256 command. -/
theorem State.p256Command_cases (s : State) (body : State → State) :
    (s.cryptoAllowed = false ∧ s.p256Command body = { s.ret .fail [] [] with engineBusy := false }) ∨
    (s.cryptoAllowed = true ∧
      s.p256Command body = { body { s with engineBusy := true } with engineBusy := false }) :=
  State.rsaCommand_cases s body

/-! The key predicate (R280, R300) -/

theorem wordOperand_eq_some {port : Bytes} {w : Word} :
    wordOperand port = some w ↔ port.length = 4 ∧ w = BitVec.ofNat 32 (le port) := by
  unfold wordOperand
  split <;> simp_all [eq_comm]

/-- A word operand has the value of its little-endian bytes (R32). -/
theorem wordOperand_toNat {port : Bytes} {w : Word} (h : wordOperand port = some w) : w.toNat = le port := by
  obtain ⟨hl, rfl⟩ := wordOperand_eq_some.mp h
  have hlt := le_lt port
  rw [hl] at hlt
  simp only [BitVec.toNat_ofNat]
  exact Nat.mod_eq_of_lt (by omega)

/-- The checks on a key, as a proposition and the exponent's value. -/
theorem keyExponent_eq_some {maxBytes n e : Nat} {modulus ePort : Bytes} :
    keyExponent maxBytes modulus.length n ePort = some e ↔ KeyOk maxBytes modulus ePort n ∧ e = le ePort := by
  unfold keyExponent KeyOk
  cases hw : wordOperand ePort with
  | none =>
    have hl : ePort.length ≠ 4 := fun hl => by
      have := wordOperand_eq_some.mpr ⟨hl, rfl⟩
      simp [hw] at this
    simp [hl]
  | some w =>
    have hl := (wordOperand_eq_some.mp hw).1
    have hv := wordOperand_toNat hw
    have hbit : w.getLsbD 0 = decide (le ePort % 2 = 1) := by
      rw [← hv, BitVec.getLsbD, Nat.testBit_zero]
    simp only [hbit, modulusSizeOk, hv]
    split
    · next h =>
      simp only [Bool.and_eq_true, beq_iff_eq, decide_eq_true_eq] at h
      simp only [Option.some.injEq, hl]
      constructor
      · rintro rfl; exact ⟨⟨h.1.1.1.1.1, h.1.1.1.1.2, h.1.1.1.2, trivial, h.1.1.2, h.1.2, h.2⟩, rfl⟩
      · rintro ⟨-, rfl⟩; rfl
    · next h =>
      simp only [Bool.and_eq_true, beq_iff_eq, decide_eq_true_eq] at h
      constructor
      · intro h'; simp at h'
      · rintro ⟨⟨h1, h2, h3, -, h4, h5, h6⟩, -⟩
        exact absurd ⟨⟨⟨⟨⟨h1, h2⟩, h3⟩, h4⟩, h5⟩, h6⟩ h

/-! Paddings (R286 to R294) -/

theorem mgf1Blocks_length (h : HashAlg) (seed : Bytes) (n c : Nat) :
    (mgf1Blocks h seed n c).length = h.digestBytes * n := by
  induction n generalizing c with
  | zero => rfl
  | succ n ih => simp only [mgf1Blocks, List.length_append, hash_length, ih, Nat.mul_succ]; omega

/-- A mask has the length that was asked for (R286). -/
@[simp] theorem mgf1_length (h : HashAlg) (seed : Bytes) (len : Nat) : (mgf1 h seed len).length = len := by
  simp only [mgf1, List.length_take, mgf1Blocks_length]
  cases h <;> simp only [HashAlg.digestBytes] <;> omega

/-- Xor with the same string twice. -/
theorem xorBytes_xorBytes (a b : Bytes) (h : a.length = b.length) : xorBytes (xorBytes a b) b = a := by
  induction a generalizing b with
  | nil => cases b <;> simp_all [xorBytes]
  | cons x xs ih =>
    cases b with
    | nil => simp at h
    | cons y ys =>
      have h' := ih ys (by simpa using h)
      simp only [xorBytes, List.zipWith_cons_cons] at h' ⊢
      rw [h', BitVec.xor_assoc, BitVec.xor_self, BitVec.xor_zero]

/-- An OAEP block fills the modulus (R290). -/
theorem oaepEncode_length (h : HashAlg) (label m seed : Bytes) (nb : Nat) (hs : seed.length = h.digestBytes)
    (hm : m.length + 2 * h.digestBytes + 2 ≤ nb) : (oaepEncode h label m seed nb).length = nb := by
  simp only [oaepEncode, List.length_cons, List.length_append, xorBytes_length, hash_length, mgf1_length, zeros_length,
    hs, min_self]
  omega

/-- A PKCS#1 v1.5 signature block fills the modulus (R288). -/
theorem emsaPkcs1_length {h : HashAlg} {digest em : Bytes} {nb : Nat} (he : emsaPkcs1 h digest nb = some em) :
    em.length = nb := by
  unfold emsaPkcs1 at he
  split at he
  · simp at he
  · simp only at he
    split at he
    · simp only [Option.some.injEq] at he
      rw [← he]
      simp only [List.length_cons, List.length_append, rep_length] at *
      omega
    · simp at he

end Sys2Proof.Machine
end

