-- ==== Sys2Proof/Laws/Loops.lean ====
section
/-! SUPPORT. The loops of the P256 and FIPS commands: what the tries of the pairwise test and of `ECDSA_SIGN`, one
known-answer test and the battery can change, and what they leave. -/

namespace Sys2Proof.Machine

/-! Draws alone -/

/-- The part of the state that draws can change. -/
def State.SameButDraws (s t : State) : Prop :=
  t = { s with env := { s.env with draws := t.env.draws, drawCount := t.env.drawCount } }

theorem State.SameButDraws.refl (s : State) : s.SameButDraws s := rfl

theorem State.SameButDraws.trans {s t u : State} (h : s.SameButDraws t) (h' : t.SameButDraws u) : s.SameButDraws u := by
  unfold State.SameButDraws at *
  rw [h', h]

theorem State.afterDraw_frame (s : State) : s.SameButDraws { s with env := s.env.afterDraw } := rfl

theorem State.afterDraws_frame (s : State) (n : Nat) : s.SameButDraws { s with env := s.env.afterDraws n } := rfl

theorem State.draw_frame (s : State) (n : Nat) : s.SameButDraws (s.draw n).2 := rfl

theorem State.drawNonzero_frame (s : State) (n : Nat) : s.SameButDraws (s.drawNonzero n).2 := rfl

theorem State.modexpBlinded_frame (s : State) (x d n e : Nat) : s.SameButDraws (s.modexpBlinded x d n e).2 := by
  unfold State.modexpBlinded
  simp only
  split
  · exact (State.drawNonzero_frame s 64).trans (State.draw_frame _ 32)
  · exact State.drawNonzero_frame s 64

theorem State.padCipher_frame (s : State) (pad : Padding) (label m : Bytes) (nb : Nat) :
    s.SameButDraws (s.padCipher pad label m nb).2 := by
  unfold State.padCipher
  split
  · exact .refl s
  · split
    · show s.SameButDraws (State.drawNonzeroBytes (nb - m.length - 3) s).2
      rw [(State.drawNonzeroBytes_spec _ s).2.2]
      exact State.afterDraws_frame s _
    · exact .refl s
  · next h =>
    split
    · show s.SameButDraws (State.drawBytes h.digestBytes s).2
      rw [(State.drawBytes_spec _ s).2]
      exact State.afterDraws_frame s _
    · exact .refl s
  · exact .refl s

theorem State.padSignature_frame (s : State) (pad : Padding) (digest : Bytes) (n nb : Nat) :
    s.SameButDraws (s.padSignature pad digest n nb).2 := by
  unfold State.padSignature
  split
  · exact .refl s
  · exact .refl s
  · next h =>
    split
    · show s.SameButDraws (State.drawBytes (pssSaltLen h n) s).2
      rw [(State.drawBytes_spec _ s).2]
      exact State.afterDraws_frame s _
    · exact .refl s
  · exact .refl s

theorem State.pairwiseTries_frame (d : Nat) (q : Point) (n : Nat) (s : State) :
    s.SameButDraws (State.pairwiseTries d q n s).2 := by
  induction n generalizing s with
  | zero => exact .refl s
  | succ n ih =>
    have h2 := (State.draw_frame s 256).trans (State.draw_frame (s.draw 256).2 256)
    simp only [State.pairwiseTries]
    split
    · exact h2.trans (ih _)
    · simp only [State.signRawBlinded_eq]
      have h5 := ((h2.trans (State.afterDraw_frame _)).trans (State.afterDraw_frame _)).trans (State.afterDraw_frame _)
      split
      · next s3 h3 =>
        obtain ⟨-, rfl⟩ := Prod.mk.injEq .. ▸ h3
        exact h5.trans (ih _)
      · next r sg s3 h3 =>
        obtain ⟨-, rfl⟩ := Prod.mk.injEq .. ▸ h3
        split <;> exact h5

/-- The pairwise test draws and changes nothing else (R256). -/
theorem State.pairwise_frame (s : State) (d : Nat) (q : Point) : s.SameButDraws (s.pairwise d q).2 := by
  unfold State.pairwise
  split
  · exact .refl s
  · exact State.pairwiseTries_frame d q _ s

/-! `ECDSA_SIGN` (R254) -/

/-- The part of the state that the tries of `ECDSA_SIGN` can change. -/
def State.SameButSigning (i : BitVec 4) (s t : State) : Prop :=
  t = { s with
    trng := t.trng, fipsStatus := t.fipsStatus, pwrupDonePersist := t.pwrupDonePersist, drbg := t.drbg,
    env := { s.env with
      noise := t.env.noise, noiseCount := t.env.noiseCount, draws := t.env.draws, drawCount := t.env.drawCount } } ∧
  ∀ j, j ≠ i → t.drbgAt j = s.drbgAt j

theorem State.SameButSigning.refl (i : BitVec 4) (s : State) : State.SameButSigning i s s := ⟨rfl, fun _ _ => rfl⟩

theorem State.SameButSigning.trans {i : BitVec 4} {s t u : State} (h : State.SameButSigning i s t)
    (h' : State.SameButSigning i t u) : State.SameButSigning i s u :=
  ⟨by rw [h'.1, h.1], fun j hj => (h'.2 j hj).trans (h.2 j hj)⟩

theorem State.SameButDrbg.toSigning {i : BitVec 4} {s t : State} (h : State.SameButDrbg i s t) :
    State.SameButSigning i s t :=
  ⟨by rw [h.1], h.2⟩

theorem State.SameButDraws.toSigning {s t : State} (h : s.SameButDraws t) (i : BitVec 4) :
    State.SameButSigning i s t := by
  unfold State.SameButDraws at h
  refine ⟨?_, fun j _ => by rw [h]; rfl⟩
  rw [h]

/-- Everything the tries can end with: `FAIL`, a code of the generator, or a signature; and the state they end in (R254). -/
theorem State.signTries_cases (i : BitVec 4) (d e n : Nat) (s : State) :
    ∃ u, State.SameButSigning i s u ∧
      (State.signTries i d e n s = u.ret .fail [] [] ∨ State.signTries i d e n s = u.ret .reseedNeeded [] [] ∨
        ∃ rs, State.signTries i d e n s = u.ret .ok (signatureBytes rs) []) := by
  induction n generalizing s with
  | zero => exact ⟨s, .refl i s, .inl rfl⟩
  | succ n ih =>
    have hf := (State.drbgGenerate_frame s i 32 []).toSigning
    unfold State.signTries
    split
    · next bytes s1 h1 =>
      rw [h1] at hf
      split
      · obtain ⟨u, hu, h⟩ := ih s1
        exact ⟨u, hf.trans hu, h⟩
      · have hd := (((State.afterDraw_frame s1).trans (State.afterDraw_frame _)).trans
          (State.afterDraw_frame _)).toSigning i
        simp only [State.signRawBlinded_eq]
        split
        · next s2 h2 =>
          obtain ⟨-, rfl⟩ := Prod.mk.injEq .. ▸ h2
          obtain ⟨u, hu, h⟩ := ih _
          exact ⟨u, (hf.trans hd).trans hu, h⟩
        · next rs s2 h2 =>
          obtain ⟨-, rfl⟩ := Prod.mk.injEq .. ▸ h2
          exact ⟨_, hf.trans hd, .inr (.inr ⟨rs, rfl⟩)⟩
    · next code x s1 hne h1 =>
      rw [h1] at hf
      refine ⟨s1, hf, ?_⟩
      have hcode : code = .fail ∨ code = .reseedNeeded := by
        rcases State.drbgGenerate_cases s i 32 [] with
          ⟨c, hc, h⟩ | ⟨-, -, h⟩ | ⟨-, -, s2, -, h⟩ | ⟨-, -, b, s2, -, h⟩ <;> rw [h1] at h
        · obtain ⟨rfl, -⟩ := Prod.mk.injEq .. ▸ h
          unfold Drbg.refuses at hc
          split at hc
          · simp_all
          · split at hc
            · simp_all
            · split at hc <;> simp_all
        · exact absurd (Prod.mk.inj h).1 (fun hk => hne hk)
        · exact .inl (Prod.mk.inj h).1
        · exact absurd (Prod.mk.inj h).1 (fun hk => hne hk)
      rcases hcode with rfl | rfl
      · exact .inl rfl
      · exact .inr (.inl rfl)

/-! Known-answer tests (R362, R363) -/

/-- One known-answer test: nothing, or its error bit; the lock is free after one that takes it. -/
theorem State.katStep_eq (s : State) (id : KatId) :
    s.katStep id =
      { (if s.katGood id then s else s.raiseFatal id.errorBit) with
        engineBusy := if id.usesEngine then false else s.engineBusy } := by
  have hg : ({ s with engineBusy := true } : State).katGood id = s.katGood id := rfl
  unfold State.katStep State.withEngine
  simp only [hg]
  cases s.katGood id <;> cases id.usesEngine <;> rfl

@[simp] theorem State.katStep_cfg (s : State) (id : KatId) : (s.katStep id).cfg = s.cfg := by
  rw [State.katStep_eq]; cases s.katGood id <;> rfl

@[simp] theorem State.katStep_fipsInject (s : State) (id : KatId) : (s.katStep id).fipsInject = s.fipsInject := by
  rw [State.katStep_eq]; cases s.katGood id <;> rfl

theorem State.katStep_fipsStatus (s : State) (id : KatId) :
    (s.katStep id).fipsStatus = s.fipsStatus ||| (if s.katGood id then 0 else id.errorBit) := by
  rw [State.katStep_eq]
  cases s.katGood id
  · show s.fipsStatus ||| (id.errorBit &&& errorMask) = _
    cases id <;> rfl
  · simp

theorem State.katStep_pwrupDonePersist (s : State) (id : KatId) :
    (s.katStep id).pwrupDonePersist = (s.katGood id && s.pwrupDonePersist) := by
  rw [State.katStep_eq]; cases s.katGood id <;> simp

/-- A known-answer test is judged by the vectors and the injection register alone (R369). -/
theorem State.katGood_congr {s t : State} (hc : t.cfg = s.cfg) (hi : t.fipsInject = s.fipsInject) (id : KatId) :
    t.katGood id = s.katGood id := by
  simp [State.katGood, State.injected, hc, hi]

/-- The part of the state that known-answer tests can change. -/
def State.SameButKats (s t : State) : Prop :=
  t = { s with fipsStatus := t.fipsStatus, pwrupDonePersist := t.pwrupDonePersist, engineBusy := t.engineBusy }

theorem State.katStep_frame (s : State) (id : KatId) : s.SameButKats (s.katStep id) := by
  unfold State.SameButKats
  rw [State.katStep_eq]
  cases s.katGood id <;> rfl

theorem State.SameButKats.trans {s t u : State} (h : s.SameButKats t) (h' : t.SameButKats u) : s.SameButKats u := by
  unfold State.SameButKats at *
  rw [h', h]

/-- A run of known-answer tests: it changes only the status, the persisted flag and the lock, a bit of the status is set
afterwards exactly where it was before or where a bad test has it, and the flag survives exactly where all are good. -/
theorem State.kats_spec (ids : List KatId) (s : State) :
    s.SameButKats (ids.foldl State.katStep s) ∧
    (∀ j, (ids.foldl State.katStep s).fipsStatus.getLsbD j = true ↔
      s.fipsStatus.getLsbD j = true ∨ ∃ id ∈ ids, s.katGood id = false ∧ id.errorBit.getLsbD j = true) ∧
    ((ids.foldl State.katStep s).pwrupDonePersist = true ↔
      s.pwrupDonePersist = true ∧ ∀ id ∈ ids, s.katGood id = true) ∧
    (s.engineBusy = false → (ids.foldl State.katStep s).engineBusy = false) := by
  induction ids generalizing s with
  | nil => exact ⟨rfl, by simp, by simp, id⟩
  | cons k ks ih =>
    obtain ⟨h1, h2, h3, h4⟩ := ih (s.katStep k)
    have hg : ∀ id, (s.katStep k).katGood id = s.katGood id :=
      fun id => State.katGood_congr (s.katStep_cfg k) (s.katStep_fipsInject k) id
    refine ⟨(s.katStep_frame k).trans h1, ?_, ?_, ?_⟩
    · intro j
      rw [List.foldl_cons, h2 j, State.katStep_fipsStatus]
      simp only [hg, List.mem_cons, exists_eq_or_imp, BitVec.getLsbD_or, Bool.or_eq_true, or_assoc]
      cases s.katGood k <;> simp
    · rw [List.foldl_cons, h3, State.katStep_pwrupDonePersist]
      simp only [hg, List.mem_cons, forall_eq_or_imp, Bool.and_eq_true]
      tauto
    · intro hb
      refine h4 ?_
      rw [State.katStep_eq]
      cases s.katGood k <;> cases k.usesEngine <;> simp [hb]

end Sys2Proof.Machine
end

