-- ==== Sys2Proof/Laws/PerInstr.lean ====
section
/-! SUPPORT. The per-instruction family `MatchesRow`: the word of every instruction matches the instruction's own row of
spec/opcode_table.json (R117), for every value of its fields. -/

namespace Sys2Proof

/-- The bitwise and of two command words, field by field (R110). -/
theorem commandWord_and (o o' : BitVec 8) (a a' s s' : BitVec 4) (x x' : BitVec 16) :
    commandWord o a s x &&& commandWord o' a' s' x' = commandWord (o &&& o') (a &&& a') (s &&& s') (x &&& x') := by
  exact BitVec.and_append.trans (congrArg (· ++ (x &&& x')) (BitVec.and_append.trans
    (congrArg (· ++ (s &&& s')) BitVec.and_append)))

/-- The word of a row is read off its instruction: the mask and the bits written as fields. -/
theorem masked_word {o : BitVec 8} {a s a0 s0 : BitVec 4} {x x0 : BitVec 16} {mask bits : Word} (ma ms : BitVec 4)
    (mx : BitVec 16) (hm : mask = commandWord 0xFF ma ms mx) (ha : a &&& ma = a0) (hs : s &&& ms = s0)
    (hx : x &&& mx = x0) (hb : bits = commandWord o a0 s0 x0) : commandWord o a s x &&& mask = bits := by
  rw [hm, hb, commandWord_and, ha, hs, hx, show (0xFF : BitVec 8) = BitVec.allOnes 8 from rfl, BitVec.and_allOnes]

end Sys2Proof

namespace Sys2Proof.Laws

/-- A path selector has no bit that the mask of its row tests (R113). -/
theorem matchesRow_path (path : BitVec 2) : path.setWidth 16 &&& 0xfffc = (0 : BitVec 16) := by
  revert path; decide

/-- The row of the instruction's mnemonic is in the table, and the instruction's word matches it. -/
def MatchesRow.Statement (i : Instr) : Prop :=
  ∃ row ∈ opcodeRows, row.mnemonic = i.mnemonic ∧ encode i &&& row.mask = row.bits

theorem MatchesRow.equals (arg : BitVec 16) : MatchesRow.Statement (.equals arg) :=
  ⟨⟨"EQUALS", 0xFFFF0000, 0x00000000⟩, by simp [opcodeRows], rfl, masked_word 0xf 0xf 0x0 (by decide)
    rfl rfl BitVec.and_zero (by decide)⟩

theorem MatchesRow.hwstat : MatchesRow.Statement .hwstat :=
  ⟨⟨"HWSTAT", 0xFFFFFFFF, 0x01000000⟩, by simp [opcodeRows], rfl, masked_word 0xf 0xf 0xffff (by decide)
    rfl rfl rfl (by decide)⟩

theorem MatchesRow.hashInit (alg : BitVec 4) (sel : BitVec 4) (path : BitVec 2) : MatchesRow.Statement (.hashInit alg sel path) :=
  ⟨⟨"HASH_INIT", 0xFF00FFFC, 0x10000000⟩, by simp [opcodeRows], rfl, masked_word 0x0 0x0 0xfffc (by decide)
    BitVec.and_zero BitVec.and_zero (matchesRow_path path) (by decide)⟩

theorem MatchesRow.hashUpdate (sel : BitVec 4) : MatchesRow.Statement (.hashUpdate sel) :=
  ⟨⟨"HASH_UPDATE", 0xFFF0FFFF, 0x11000000⟩, by simp [opcodeRows], rfl, masked_word 0xf 0x0 0xffff (by decide)
    rfl BitVec.and_zero rfl (by decide)⟩

theorem MatchesRow.hashFinal (sel : BitVec 4) : MatchesRow.Statement (.hashFinal sel) :=
  ⟨⟨"HASH_FINAL", 0xFFF0FFFF, 0x12000000⟩, by simp [opcodeRows], rfl, masked_word 0xf 0x0 0xffff (by decide)
    rfl BitVec.and_zero rfl (by decide)⟩

theorem MatchesRow.hashSize (alg : BitVec 4) : MatchesRow.Statement (.hashSize alg) :=
  ⟨⟨"HASH_SIZE", 0xFF0FFFFF, 0x13000000⟩, by simp [opcodeRows], rfl, masked_word 0x0 0xf 0xffff (by decide)
    BitVec.and_zero rfl rfl (by decide)⟩

theorem MatchesRow.hashBlockSize (alg : BitVec 4) : MatchesRow.Statement (.hashBlockSize alg) :=
  ⟨⟨"HASH_BLOCK_SIZE", 0xFF0FFFFF, 0x14000000⟩, by simp [opcodeRows], rfl, masked_word 0x0 0xf 0xffff (by decide)
    BitVec.and_zero rfl rfl (by decide)⟩

theorem MatchesRow.hmacInit (alg : BitVec 4) (sel : BitVec 4) (path : BitVec 2) : MatchesRow.Statement (.hmacInit alg sel path) :=
  ⟨⟨"HMAC_INIT", 0xFF00FFFC, 0x20000000⟩, by simp [opcodeRows], rfl, masked_word 0x0 0x0 0xfffc (by decide)
    BitVec.and_zero BitVec.and_zero (matchesRow_path path) (by decide)⟩

theorem MatchesRow.hmacUpdate (sel : BitVec 4) : MatchesRow.Statement (.hmacUpdate sel) :=
  ⟨⟨"HMAC_UPDATE", 0xFFF0FFFF, 0x21000000⟩, by simp [opcodeRows], rfl, masked_word 0xf 0x0 0xffff (by decide)
    rfl BitVec.and_zero rfl (by decide)⟩

theorem MatchesRow.hmacFinal (sel : BitVec 4) : MatchesRow.Statement (.hmacFinal sel) :=
  ⟨⟨"HMAC_FINAL", 0xFFF0FFFF, 0x22000000⟩, by simp [opcodeRows], rfl, masked_word 0xf 0x0 0xffff (by decide)
    rfl BitVec.and_zero rfl (by decide)⟩

theorem MatchesRow.hkdf (alg : BitVec 4) (arg : BitVec 16) : MatchesRow.Statement (.hkdf alg arg) :=
  ⟨⟨"HKDF", 0xFF0F0000, 0x23000000⟩, by simp [opcodeRows], rfl, masked_word 0x0 0xf 0x0 (by decide)
    BitVec.and_zero rfl BitVec.and_zero (by decide)⟩

theorem MatchesRow.trngStartup : MatchesRow.Statement .trngStartup :=
  ⟨⟨"TRNG_STARTUP", 0xFFFFFFFF, 0x30000000⟩, by simp [opcodeRows], rfl, masked_word 0xf 0xf 0xffff (by decide)
    rfl rfl rfl (by decide)⟩

theorem MatchesRow.trngWord : MatchesRow.Statement .trngWord :=
  ⟨⟨"TRNG_WORD", 0xFFFFFFFF, 0x31000000⟩, by simp [opcodeRows], rfl, masked_word 0xf 0xf 0xffff (by decide)
    rfl rfl rfl (by decide)⟩

theorem MatchesRow.drbgInit (sel : BitVec 4) : MatchesRow.Statement (.drbgInit sel) :=
  ⟨⟨"DRBG_INIT", 0xFFF0FFFF, 0x40000000⟩, by simp [opcodeRows], rfl, masked_word 0xf 0x0 0xffff (by decide)
    rfl BitVec.and_zero rfl (by decide)⟩

theorem MatchesRow.drbgReseed (sel : BitVec 4) : MatchesRow.Statement (.drbgReseed sel) :=
  ⟨⟨"DRBG_RESEED", 0xFFF0FFFF, 0x41000000⟩, by simp [opcodeRows], rfl, masked_word 0xf 0x0 0xffff (by decide)
    rfl BitVec.and_zero rfl (by decide)⟩

theorem MatchesRow.drbgGenerate (sel : BitVec 4) (arg : BitVec 16) : MatchesRow.Statement (.drbgGenerate sel arg) :=
  ⟨⟨"DRBG_GENERATE", 0xFFF00000, 0x42000000⟩, by simp [opcodeRows], rfl, masked_word 0xf 0x0 0x0 (by decide)
    rfl BitVec.and_zero BitVec.and_zero (by decide)⟩

theorem MatchesRow.drbgExit (sel : BitVec 4) : MatchesRow.Statement (.drbgExit sel) :=
  ⟨⟨"DRBG_EXIT", 0xFFF0FFFF, 0x43000000⟩, by simp [opcodeRows], rfl, masked_word 0xf 0x0 0xffff (by decide)
    rfl BitVec.and_zero rfl (by decide)⟩

theorem MatchesRow.drbgInitRfc6979 (sel : BitVec 4) : MatchesRow.Statement (.drbgInitRfc6979 sel) :=
  ⟨⟨"DRBG_INIT_RFC6979", 0xFFF0FFFF, 0x44000000⟩, by simp [opcodeRows], rfl, masked_word 0xf 0x0 0xffff (by decide)
    rfl BitVec.and_zero rfl (by decide)⟩

theorem MatchesRow.randBytes (arg : BitVec 16) : MatchesRow.Statement (.randBytes arg) :=
  ⟨⟨"RAND_BYTES", 0xFFFF0000, 0x45000000⟩, by simp [opcodeRows], rfl, masked_word 0xf 0xf 0x0 (by decide)
    rfl rfl BitVec.and_zero (by decide)⟩

theorem MatchesRow.aesEcbEnc (alg : BitVec 4) : MatchesRow.Statement (.aesEcbEnc alg) :=
  ⟨⟨"AES_ECB_ENC", 0xFF0FFFFF, 0x50000000⟩, by simp [opcodeRows], rfl, masked_word 0x0 0xf 0xffff (by decide)
    BitVec.and_zero rfl rfl (by decide)⟩

theorem MatchesRow.aesEcbDec (alg : BitVec 4) : MatchesRow.Statement (.aesEcbDec alg) :=
  ⟨⟨"AES_ECB_DEC", 0xFF0FFFFF, 0x51000000⟩, by simp [opcodeRows], rfl, masked_word 0x0 0xf 0xffff (by decide)
    BitVec.and_zero rfl rfl (by decide)⟩

theorem MatchesRow.aesCtr (alg : BitVec 4) : MatchesRow.Statement (.aesCtr alg) :=
  ⟨⟨"AES_CTR", 0xFF0FFFFF, 0x52000000⟩, by simp [opcodeRows], rfl, masked_word 0x0 0xf 0xffff (by decide)
    BitVec.and_zero rfl rfl (by decide)⟩

theorem MatchesRow.aesCbcEnc (alg : BitVec 4) : MatchesRow.Statement (.aesCbcEnc alg) :=
  ⟨⟨"AES_CBC_ENC", 0xFF0FFFFF, 0x53000000⟩, by simp [opcodeRows], rfl, masked_word 0x0 0xf 0xffff (by decide)
    BitVec.and_zero rfl rfl (by decide)⟩

theorem MatchesRow.aesCbcDec (alg : BitVec 4) : MatchesRow.Statement (.aesCbcDec alg) :=
  ⟨⟨"AES_CBC_DEC", 0xFF0FFFFF, 0x54000000⟩, by simp [opcodeRows], rfl, masked_word 0x0 0xf 0xffff (by decide)
    BitVec.and_zero rfl rfl (by decide)⟩

theorem MatchesRow.aesCmac (alg : BitVec 4) : MatchesRow.Statement (.aesCmac alg) :=
  ⟨⟨"AES_CMAC", 0xFF0FFFFF, 0x55000000⟩, by simp [opcodeRows], rfl, masked_word 0x0 0xf 0xffff (by decide)
    BitVec.and_zero rfl rfl (by decide)⟩

theorem MatchesRow.modexpBlinded : MatchesRow.Statement .modexpBlinded :=
  ⟨⟨"MODEXP_BLINDED", 0xFFFFFFFF, 0x60000000⟩, by simp [opcodeRows], rfl, masked_word 0xf 0xf 0xffff (by decide)
    rfl rfl rfl (by decide)⟩

theorem MatchesRow.modexpPub : MatchesRow.Statement .modexpPub :=
  ⟨⟨"MODEXP_PUB", 0xFFFFFFFF, 0x61000000⟩, by simp [opcodeRows], rfl, masked_word 0xf 0xf 0xffff (by decide)
    rfl rfl rfl (by decide)⟩

theorem MatchesRow.rsaEncrypt (alg : BitVec 4) (sel : BitVec 4) : MatchesRow.Statement (.rsaEncrypt alg sel) :=
  ⟨⟨"RSA_ENCRYPT", 0xFF00FFFF, 0x62000000⟩, by simp [opcodeRows], rfl, masked_word 0x0 0x0 0xffff (by decide)
    BitVec.and_zero BitVec.and_zero rfl (by decide)⟩

theorem MatchesRow.rsaDecrypt (alg : BitVec 4) (sel : BitVec 4) : MatchesRow.Statement (.rsaDecrypt alg sel) :=
  ⟨⟨"RSA_DECRYPT", 0xFF00FFFF, 0x63000000⟩, by simp [opcodeRows], rfl, masked_word 0x0 0x0 0xffff (by decide)
    BitVec.and_zero BitVec.and_zero rfl (by decide)⟩

theorem MatchesRow.rsaSign (alg : BitVec 4) (sel : BitVec 4) : MatchesRow.Statement (.rsaSign alg sel) :=
  ⟨⟨"RSA_SIGN", 0xFF00FFFF, 0x64000000⟩, by simp [opcodeRows], rfl, masked_word 0x0 0x0 0xffff (by decide)
    BitVec.and_zero BitVec.and_zero rfl (by decide)⟩

theorem MatchesRow.rsaVerify (alg : BitVec 4) (sel : BitVec 4) : MatchesRow.Statement (.rsaVerify alg sel) :=
  ⟨⟨"RSA_VERIFY", 0xFF00FFFF, 0x65000000⟩, by simp [opcodeRows], rfl, masked_word 0x0 0x0 0xffff (by decide)
    BitVec.and_zero BitVec.and_zero rfl (by decide)⟩

theorem MatchesRow.p256KeyFromBytes : MatchesRow.Statement .p256KeyFromBytes :=
  ⟨⟨"P256_KEY_FROM_BYTES", 0xFFFFFFFF, 0x70000000⟩, by simp [opcodeRows], rfl, masked_word 0xf 0xf 0xffff (by decide)
    rfl rfl rfl (by decide)⟩

theorem MatchesRow.p256BaseMul : MatchesRow.Statement .p256BaseMul :=
  ⟨⟨"P256_BASE_MUL", 0xFFFFFFFF, 0x71000000⟩, by simp [opcodeRows], rfl, masked_word 0xf 0xf 0xffff (by decide)
    rfl rfl rfl (by decide)⟩

theorem MatchesRow.p256PointMul : MatchesRow.Statement .p256PointMul :=
  ⟨⟨"P256_POINT_MUL", 0xFFFFFFFF, 0x72000000⟩, by simp [opcodeRows], rfl, masked_word 0xf 0xf 0xffff (by decide)
    rfl rfl rfl (by decide)⟩

theorem MatchesRow.ecdsaSignRaw : MatchesRow.Statement .ecdsaSignRaw :=
  ⟨⟨"ECDSA_SIGN_RAW", 0xFFFFFFFF, 0x73000000⟩, by simp [opcodeRows], rfl, masked_word 0xf 0xf 0xffff (by decide)
    rfl rfl rfl (by decide)⟩

theorem MatchesRow.ecdsaSign (sel : BitVec 4) : MatchesRow.Statement (.ecdsaSign sel) :=
  ⟨⟨"ECDSA_SIGN", 0xFFF0FFFF, 0x74000000⟩, by simp [opcodeRows], rfl, masked_word 0xf 0x0 0xffff (by decide)
    rfl BitVec.and_zero rfl (by decide)⟩

theorem MatchesRow.ecdsaVerify : MatchesRow.Statement .ecdsaVerify :=
  ⟨⟨"ECDSA_VERIFY", 0xFFFFFFFF, 0x75000000⟩, by simp [opcodeRows], rfl, masked_word 0xf 0xf 0xffff (by decide)
    rfl rfl rfl (by decide)⟩

theorem MatchesRow.fipsPowerOn : MatchesRow.Statement .fipsPowerOn :=
  ⟨⟨"FIPS_POWER_ON", 0xFFFFFFFF, 0x80000000⟩, by simp [opcodeRows], rfl, masked_word 0xf 0xf 0xffff (by decide)
    rfl rfl rfl (by decide)⟩

theorem MatchesRow.fipsStatus : MatchesRow.Statement .fipsStatus :=
  ⟨⟨"FIPS_STATUS", 0xFFFFFFFF, 0x81000000⟩, by simp [opcodeRows], rfl, masked_word 0xf 0xf 0xffff (by decide)
    rfl rfl rfl (by decide)⟩

theorem MatchesRow.fipsAllowed : MatchesRow.Statement .fipsAllowed :=
  ⟨⟨"FIPS_ALLOWED", 0xFFFFFFFF, 0x82000000⟩, by simp [opcodeRows], rfl, masked_word 0xf 0xf 0xffff (by decide)
    rfl rfl rfl (by decide)⟩

theorem MatchesRow.fipsThrowErr (arg : BitVec 16) : MatchesRow.Statement (.fipsThrowErr arg) :=
  ⟨⟨"FIPS_THROW_ERR", 0xFFFF0000, 0x83000000⟩, by simp [opcodeRows], rfl, masked_word 0xf 0xf 0x0 (by decide)
    rfl rfl BitVec.and_zero (by decide)⟩

theorem MatchesRow.fipsKat (alg : BitVec 4) : MatchesRow.Statement (.fipsKat alg) :=
  ⟨⟨"FIPS_KAT", 0xFF0FFFFF, 0x84000000⟩, by simp [opcodeRows], rfl, masked_word 0x0 0xf 0xffff (by decide)
    BitVec.and_zero rfl rfl (by decide)⟩

theorem MatchesRow.fipsInject (arg : BitVec 16) : MatchesRow.Statement (.fipsInject arg) :=
  ⟨⟨"FIPS_INJECT", 0xFFFF0000, 0x85000000⟩, by simp [opcodeRows], rfl, masked_word 0xf 0xf 0x0 (by decide)
    rfl rfl BitVec.and_zero (by decide)⟩

end Sys2Proof.Laws
end

