-- ==== Sys2Proof/Tests/Slice0.lean ====
section
/-! SUPPORT. Tests: words written out from the opcode map of R115, the refused terms and words of R116, one step of each
instruction on a small state with an expected value of spec/95_test_vectors.md or of the rule itself, and for every
statement with hypotheses a state and operands that meet them. -/

open Sys2Proof Sys2Proof.Machine

namespace Sys2Proof.Tests

set_option Elab.async false

/-! ## WellFormed (R116) -/

theorem test_path_three_is_ill_formed_hash : (Instr.hashInit 3 0 3).wellFormed = false := by decide

theorem test_path_three_is_ill_formed_hmac : (Instr.hmacInit 3 0 3).wellFormed = false := by decide

theorem test_path_two_is_well_formed : (Instr.hashInit 0 15 2).wellFormed = true := by decide

/-! ## Decoding (R110, R115): `OPC` in bits 31:24, `ALG` in 23:20, `SEL` in 19:16, `ARG` in 15:0 -/

theorem test_decode_sys : decode 0b00000000000000001000000000000001 = .ok (.equals 0x8001) ∧
    decode 0x01000000 = .ok .hwstat := by decide

theorem test_decode_hash : decode 0b00010000001101010000000000000010 = .ok (.hashInit 3 5 2) ∧
    decode 0x110B0000 = .ok (.hashUpdate 11) ∧ decode 0x120B0000 = .ok (.hashFinal 11) ∧
    decode 0x13500000 = .ok (.hashSize 5) ∧ decode 0x14F00000 = .ok (.hashBlockSize 15) := by decide

theorem test_decode_hmac : decode 0b00100000010000010000000000000001 = .ok (.hmacInit 4 1 1) ∧
    decode 0x21010000 = .ok (.hmacUpdate 1) ∧ decode 0x22010000 = .ok (.hmacFinal 1) ∧
    decode 0x23301FE0 = .ok (.hkdf 3 8160) := by decide

theorem test_decode_trng : decode 0b00110000000000000000000000000000 = .ok .trngStartup ∧
    decode 0x31000000 = .ok .trngWord := by decide

theorem test_decode_drbg : decode 0b01000010000001110000001110101001 = .ok (.drbgGenerate 7 937) ∧
    decode 0x400F0000 = .ok (.drbgInit 15) ∧ decode 0x41010000 = .ok (.drbgReseed 1) ∧
    decode 0x43010000 = .ok (.drbgExit 1) ∧ decode 0x44010000 = .ok (.drbgInitRfc6979 1) ∧
    decode 0x45000010 = .ok (.randBytes 16) := by decide

theorem test_decode_aes : decode 0b01010000001000000000000000000000 = .ok (.aesEcbEnc 2) ∧
    decode 0x51100000 = .ok (.aesEcbDec 1) ∧ decode 0x52000000 = .ok (.aesCtr 0) ∧
    decode 0x53200000 = .ok (.aesCbcEnc 2) ∧ decode 0x54200000 = .ok (.aesCbcDec 2) ∧
    decode 0x55F00000 = .ok (.aesCmac 15) := by decide

theorem test_decode_rsa : decode 0b01100100001100010000000000000000 = .ok (.rsaSign 3 1) ∧
    decode 0x60000000 = .ok .modexpBlinded ∧ decode 0x61000000 = .ok .modexpPub ∧
    decode 0x62230000 = .ok (.rsaEncrypt 2 3) ∧ decode 0x63100000 = .ok (.rsaDecrypt 1 0) ∧
    decode 0x65150000 = .ok (.rsaVerify 1 5) := by decide

theorem test_decode_p256 : decode 0b01110100000000010000000000000000 = .ok (.ecdsaSign 1) ∧
    decode 0x70000000 = .ok .p256KeyFromBytes ∧ decode 0x71000000 = .ok .p256BaseMul ∧
    decode 0x72000000 = .ok .p256PointMul ∧ decode 0x73000000 = .ok .ecdsaSignRaw ∧
    decode 0x75000000 = .ok .ecdsaVerify := by decide

theorem test_decode_fips : decode 0b10000011000000001000000000000000 = .ok (.fipsThrowErr 0x8000) ∧
    decode 0x80000000 = .ok .fipsPowerOn ∧ decode 0x81000000 = .ok .fipsStatus ∧
    decode 0x82000000 = .ok .fipsAllowed ∧ decode 0x84600000 = .ok (.fipsKat 6) ∧
    decode 0x85000006 = .ok (.fipsInject 6) := by decide

/-- R116(a), (b), (c), in that order; the last two are vector H39. -/
theorem test_illegal_words : decode 0x02000000 = .error .unknownOpcode ∧ decode 0xFFFFFFFF = .error .unknownOpcode ∧
    decode 0x01000001 = .error .reservedFieldNonzero ∧ decode 0x00010004 = .error .reservedFieldNonzero ∧
    decode 0x12100000 = .error .reservedFieldNonzero ∧ decode 0x10300003 = .error .illegalPath ∧
    decode 0x20300003 = .error .illegalPath ∧ decode 0x10300004 = .error .reservedFieldNonzero := by decide

/-! ## Helper states -/

/-- A string of the bytes of a numeral, first byte leftmost, as the vectors write them. -/
abbrev hex (n value : Nat) : Bytes := toBE value n

/-- The reset state with the gate open (the start of the vectors): `FIPS_STATUS = 0xC0000000` and a healthy TRNG, with three
draws to come. -/
def opened : State :=
  { State.reset with
    fipsStatus := 0xC0000000, pwrupDonePersist := true, env := { Env.empty with draws := [5, 6, 7] },
    trng := { runBit := some true, runLen := 1, window := List.replicate 32 0xAAAAAAAA, healthy := true, failed := false } }

/-- The opened state with these input ports. -/
def ports (a b c d : Bytes) : State := { opened with in0 := a, in1 := b, in2 := c, in3 := d }

/-- The opened state with small parameters: two slots of each kind, the smallest `MAX_BUF`. -/
def small : State := { opened with cfg := { Config.suggested with nCtx := 2, nDrbg := 2, maxBuf := 937 } }

/-- A hash context with these pending bytes. -/
def pending (a : HashAlg) (buf : Bytes) : HashCtx := { HashCtx.fresh a .sw with count := buf.length, buf := buf }

/-- A DRBG instance with simple contents and this counter and threshold. -/
def instanceWith (counter threshold : Word) : Drbg where
  k := zeros 32
  v := rep 0x01 32
  reseedCounter := counter
  reseedThreshold := threshold
  cookie := .valid

/-- `RES`, `OUT0` and `OUT1` of a step. -/
def answers : Outcome → Option (BitVec 8 × Bytes × Bytes)
  | .next t => some (t.res, t.out0, t.out1)
  | .fault _ => none
  | .refused _ => none

/-- One observation of the state after a step. -/
def after {α : Type} (f : State → α) : Outcome → Option α
  | .next t => some (f t)
  | .fault _ => none
  | .refused _ => none

/-! ## One step -/

/-- R117, R83: the command of a table word is the very next step after reset. -/
theorem test_fetch_word : answers (step (State.reset.withFetchWord 32 0x13300000)) = some (0, [0x20, 0, 0, 0], []) := by
  decide +kernel

theorem test_reset_event_closes_gate :
    after State.fipsStatus (step { opened with env := { Env.empty with schedule := [.resume] } }) = some 0 ∧
    after State.pwrupDonePersist (step { opened with env := { Env.empty with schedule := [.resume] } }) = some true ∧
    after State.pwrupDonePersist (step { opened with env := { Env.empty with schedule := [.hardReset] } }) = some false := by
  decide +kernel

/-- Q-vectors of section 5: one differing byte at the last offset. -/
theorem test_equals : answers (exec (.equals 4) (ports (hex 4 0x01020304) (hex 4 0x01020304) [] [])) = some (0, [], []) ∧
    answers (exec (.equals 4) (ports (hex 4 0x01020304) (hex 4 0x01020305) [] [])) = some (1, [], []) := by
  decide +kernel

theorem test_hwstat : answers (exec .hwstat { opened with shaHwOwner := some 5 }) = some (0, [0x51, 0, 0, 0], []) := by
  decide +kernel

/-- Vectors H40 and H41. -/
theorem test_hash_init_grab : after (fun t => t.shaHwOwner) (exec (.hashInit 3 0 2) opened) = some (some 0) ∧
    after (fun t => t.res) (exec (.hashInit 3 1 2) { opened with shaHwOwner := some 0 }) = some 1 ∧
    after (fun t => t.shaHwOwner) (exec (.hashInit 3 0 1) { opened with shaHwOwner := some 0 }) = some none := by
  decide +kernel

theorem test_hash_update_buffers : after (fun t => t.ctxAt 2)
      (exec (.hashUpdate 2) ((ports (hex 3 0x616263) [] [] []).setCtx 2 (.hash (pending .sha512 [])))) =
    some (.hash (pending .sha512 (hex 3 0x616263))) := by
  decide +kernel

/-- Vector H6. -/
theorem test_hash_final_sha1 :
    answers (exec (.hashFinal 0) (opened.setCtx 0 (.hash (pending .sha1 (hex 3 0x616263))))) =
      some (0, hex 20 0xa9993e364706816aba3e25717850c26c9cd0d89d, []) := by
  decide +kernel

/-- Vector H10. -/
theorem test_hash_final_sha384 :
    answers (exec (.hashFinal 0) (opened.setCtx 0 (.hash (pending .sha384 (hex 3 0x616263))))) =
      some (0, hex 48 0xcb00753f45a35e8bb5a03d699ac65007272c32ab0eded1631a8b605a43ff5bed8086072ba1e7cc2358baeca134c825a7,
        []) := by
  decide +kernel

/-- Vectors H33 to H35. -/
theorem test_hash_sizes : answers (exec (.hashSize 5) State.reset) = some (0, [0x40, 0, 0, 0], []) ∧
    answers (exec (.hashBlockSize 4) State.reset) = some (0, [0x80, 0, 0, 0], []) := by
  decide +kernel

theorem test_hmac_init_counts_block : after (fun t => ((t.ctxAt 1).context.map HashCtx.count, (t.ctxAt 1).holdsHardware))
    (exec (.hmacInit 3 1 0) opened) = some (some 64, true) := by
  decide +kernel

theorem test_hmac_update_wrong_kind :
    after (fun t => t.res) (exec (.hmacUpdate 0) (opened.setCtx 0 (.hash (pending .sha1 [])))) = some 1 := by
  decide +kernel

/-- R174: with the gate closed the tag is refused and the key block is cleared. -/
theorem test_hmac_final_closed_gate_clears_key :
    after (fun t => (t.res, t.ctxAt 0)) (exec (.hmacFinal 0) (State.reset.setCtx 0 (.hmac (pending .sha1 []) (rep 7 64)))) =
      some (1, .hmac (pending .sha1 []) (zeros 64)) := by
  decide +kernel

/-- Vector K3. -/
theorem test_hkdf : answers (exec (.hkdf 3 32) (ports [] (rep 0x0b 22) [] [])) =
    some (0, hex 32 0x8da4e775a563c18f715f802a063c5a31b8a11f5c5ee1879ec3454e5f3c738d2d, []) := by
  decide +kernel

/-- R192, R194: a stuck source fails at the second word, all of whose samples are counted. -/
theorem test_trng_startup_stuck :
    after (fun t => (t.res, t.fipsStatus, t.trng.failed, t.trng.runLen))
      (exec .trngStartup { State.reset with env := { Env.empty with noise := List.replicate 2 0 } }) =
      some (1, 0x2, true, 64) := by
  decide +kernel

theorem test_trng_word : answers (exec .trngWord { opened with env := { Env.empty with noise := [0x12345678] } }) =
    some (0, [0x78, 0x56, 0x34, 0x12], []) := by
  decide +kernel

/-- Vector DG3: the instance after an empty seed, its counter and cookie. -/
theorem test_drbg_init : after (fun t => ((t.drbgAt 1).reseedCounter, (t.drbgAt 1).cookie))
    (exec (.drbgInit 1) (ports [] [] [] [0xff, 0xff, 0xff, 0xff])) = some (1, .valid) := by
  decide +kernel

theorem test_drbg_reseed_dead_instance : after (fun t => t.res) (exec (.drbgReseed 1) (opened.setDrbg 1 Drbg.erased)) =
    some 1 := by
  decide +kernel

/-- R216: the sentinel gives `RESEED_NEEDED`. -/
theorem test_drbg_generate_sentinel :
    answers (exec (.drbgGenerate 1 32) (opened.setDrbg 1 (instanceWith 0xFFFFFFFF 0xFFFFFFFF))) = some (3, [], []) := by
  decide +kernel

theorem test_drbg_exit_with_closed_gate :
    after (fun t => (t.res, t.drbgAt 1)) (exec (.drbgExit 1) (State.reset.setDrbg 1 (instanceWith 1 1))) =
      some (0, Drbg.erased) := by
  decide +kernel

theorem test_drbg_init_rfc6979_threshold : after (fun t => (t.drbgAt 1).reseedThreshold)
    (exec (.drbgInitRfc6979 1) (ports (zeros 32) (zeros 32) [] [])) = some 0xFFFFFFFF := by
  decide +kernel

theorem test_rand_bytes_of_no_length : answers (exec (.randBytes 0) (opened.setDrbg 0 (instanceWith 1 1))) =
    some (0, [], []) := by
  decide +kernel

/-- Vector A4, AES-256. -/
theorem test_aes_ecb_enc : answers (exec (.aesEcbEnc 2) (ports KatVectors.suggested.aesKey [] KatVectors.suggested.aesPt [])) =
    some (0, hex 16 0xf3eed1bdb5d2a03c064b5a7e3db181f8, []) := by
  decide +kernel

/-- Vector A2, AES-192, read backwards. -/
theorem test_aes_ecb_dec : answers (exec (.aesEcbDec 1)
    (ports (hex 24 0x000102030405060708090a0b0c0d0e0f1011121314151617) [] (hex 16 0xdda97ca4864cdfe06eaf70a0ec0d7191) [])) =
    some (0, hex 16 0x00112233445566778899aabbccddeeff, []) := by
  decide +kernel

/-- Vector A4, AES-128: counter mode of zeros from the block as counter. -/
theorem test_aes_ctr : answers (exec (.aesCtr 0)
    (ports (hex 16 0x2b7e151628aed2a6abf7158809cf4f3c) (hex 16 0x6bc1bee22e409f96e93d7e117393172a) (zeros 16) [])) =
    some (0, hex 16 0x3ad77bb40d7a3660a89ecaf32466ef97, []) := by
  decide +kernel

/-- Section 6: the AES vector through CBC with a zero IV, both ways. -/
theorem test_aes_cbc_enc :
    answers (exec (.aesCbcEnc 2) (ports KatVectors.suggested.aesKey (zeros 16) KatVectors.suggested.aesPt [])) =
      some (0, KatVectors.suggested.aesCt, KatVectors.suggested.aesCt) := by
  decide +kernel

theorem test_aes_cbc_dec :
    answers (exec (.aesCbcDec 2) (ports KatVectors.suggested.aesKey (zeros 16) KatVectors.suggested.aesCt [])) =
      some (0, KatVectors.suggested.aesPt, KatVectors.suggested.aesCt) := by
  decide +kernel

/-- Vector A14, the empty message. -/
theorem test_aes_cmac : answers (exec (.aesCmac 0) (ports (hex 16 0x2b7e151628aed2a6abf7158809cf4f3c) [] [] [])) =
    some (0, hex 16 0xbb1d6929e95937287fa37d129b756746, []) := by
  decide +kernel

/-- A toy modulus of 32 bytes, 15, in the order of the ports of the raw engine and of the wrappers. -/
def toyLE : Bytes := toLE 15 32

def toyBE : Bytes := toBE 15 32

/-- `2^3 mod 15` by hand: 8, and `8^3 mod 15 = 2`; the blinder 2 is invertible, the blinder 3 is not. -/
theorem test_modexp_blinded :
    answers (exec .modexpBlinded { ports (toLE 8 32) (toLE 3 32) toyLE [3, 0, 0, 0] with
      env := { Env.empty with draws := [2, 0xFFFFFFFF] } }) = some (0, toLE 2 32, []) ∧
    answers (exec .modexpBlinded { ports (toLE 8 32) (toLE 3 32) toyLE [3, 0, 0, 0] with
      env := { Env.empty with draws := [3] } }) = some (1, [], []) := by
  decide +kernel

/-- Vector RS2. -/
theorem test_modexp_pub : answers (exec .modexpPub (ports (toLE 0x01020304 32) []
      (hex 32 0x5d4e630a24d68e4323cb9227cf2de3cfdc81b40acc15563790d005a74f9d42bb) [1, 0, 1, 0])) =
    some (0, hex 32 0x6fd2b212c2baee09b90b29bef96b723330815a0a24efcdb552f9992ad6989094, []) := by
  decide +kernel

theorem test_rsa_encrypt_null : answers (exec (.rsaEncrypt 0 0) (ports [2] [] toyBE [3, 0, 0, 0])) =
    some (0, toBE 8 32, []) := by
  decide +kernel

theorem test_rsa_decrypt_null : answers (exec (.rsaDecrypt 0 0) { ports (toBE 8 32) (toBE 3 32) toyBE [3, 0, 0, 0] with
    env := { Env.empty with draws := [7, 1] } }) = some (0, toBE 2 32, []) := by
  decide +kernel

theorem test_rsa_sign_null : answers (exec (.rsaSign 0 0) { ports (toBE 2 32) (toBE 3 32) toyBE [3, 0, 0, 0] with
    env := { Env.empty with draws := [4, 1] } }) = some (0, toBE 8 32, []) := by
  decide +kernel

theorem test_rsa_verify_null : answers (exec (.rsaVerify 0 0) (ports (toBE 2 32) (toBE 8 32) toyBE [3, 0, 0, 0])) =
      some (0, [], []) ∧
    answers (exec (.rsaVerify 0 0) (ports (toBE 3 32) (toBE 8 32) toyBE [3, 0, 0, 0])) = some (1, [], []) := by
  decide +kernel

/-- The bytes of `G` (R240). -/
def gBytes : Bytes :=
  hex 32 0x6b17d1f2e12c4247f8bce6e563a440f277037d812deb33a0f4a13945d898c296 ++
    hex 32 0x4fe342e2fe1a7f9b8ee7eb4a7c0f9e162bce33576b315ececbb6406837bf51f5

/-- The ports of a key from the zero seed, with the draws of a pairwise test whose nonce is 1 (vector E4). -/
def keyState : State :=
  { ports (zeros 32) [] [] [] with env := { Env.empty with draws := [9, 0, 0, 8, 7, 6] } }

/-- Vector E4. -/
theorem test_key_from_zero_seed : answers (exec .p256KeyFromBytes keyState) = some (0, hex 32 1, gBytes) := by
  decide +kernel

/-- Vector E5. -/
theorem test_base_mul_two : answers (exec .p256BaseMul (ports (hex 32 2) [] [] [])) =
    some (0, hex 32 0x7cf27b188d034f7e8a52380304b51ac3c08969e277f21b35a60b48fc47669978 ++
      hex 32 0x07775510db8ed040293d9ac69f7430dbba7dade63ce982299e04b79d227873d1, []) := by
  decide +kernel

/-- One times `G`, and a point off the curve. -/
theorem test_point_mul_one : answers (exec .p256PointMul (ports (hex 32 1) gBytes [] [])) = some (0, gBytes, []) ∧
    answers (exec .p256PointMul (ports (hex 32 1) (zeros 64) [] [])) = some (1, [], []) := by
  decide +kernel

/-- With `k = d = 1` and `e = 0` both halves of the signature are the abscissa of `G` (R253). -/
theorem test_sign_raw_ones : answers (exec .ecdsaSignRaw (ports (hex 32 1) (hex 32 1) (zeros 32) [])) =
    some (0, gBytes.take 32 ++ gBytes.take 32, []) := by
  decide +kernel

theorem test_ecdsa_sign_dead_instance :
    answers (exec (.ecdsaSign 1) ((ports [] (hex 32 1) (zeros 32) []).setDrbg 1 Drbg.erased)) = some (1, [], []) := by
  decide +kernel

theorem test_ecdsa_verify_ones :
    answers (exec .ecdsaVerify (ports gBytes (zeros 32) (gBytes.take 32 ++ gBytes.take 32) [])) = some (0, [], []) ∧
    answers (exec .ecdsaVerify (ports gBytes (zeros 32) (zeros 64) [])) = some (1, [], []) := by
  decide +kernel

/-- 128 words that pass both tests. -/
def goodNoise : List Word := List.replicate 128 0xAAAAAAAA

/-- The reset state with the persisted flag and good noise to come. -/
def resumed : State :=
  { State.reset with pwrupDonePersist := true, env := { Env.empty with noise := goodNoise } }

/-- R360: with the persisted flag the battery is skipped and the gate opens. -/
theorem test_power_on_after_resume :
    after (fun t => (t.res, t.fipsStatus, t.trng.healthy)) (exec .fipsPowerOn resumed) = some (0, 0xC0000000, true) := by
  decide +kernel

theorem test_fips_status : answers (exec .fipsStatus opened) = some (0, [0, 0, 0, 0xC0], []) := by decide +kernel

theorem test_fips_allowed : answers (exec .fipsAllowed opened) = some (0, [], []) ∧
    answers (exec .fipsAllowed { opened with fipsStatus := 0xC0008000 }) = some (1, [], []) := by
  decide +kernel

theorem test_fips_throw_err : after (fun t => (t.res, t.fipsStatus, t.pwrupDonePersist)) (exec (.fipsThrowErr 0x8000) opened) =
      some (0, 0xC0008000, false) ∧
    after (fun t => (t.fipsStatus, t.trng.failed)) (exec (.fipsThrowErr 0x4) opened) = some (0xC0000004, true) := by
  decide +kernel

/-- Section 6: `KAT_SHA256` is good, and an injected failure is a failure (R363). -/
theorem test_fips_kat : after (fun t => (t.res, t.fipsStatus)) (exec (.fipsKat 1) State.reset) = some (0, 0) ∧
    after (fun t => (t.res, t.fipsStatus)) (exec (.fipsKat 1) { State.reset with fipsInject := 0x10 }) = some (1, 0x10) := by
  decide +kernel

/-- Section 6: `KAT_AES256` is good. -/
theorem test_kat_aes256 : katAes256 KatVectors.suggested = true := by decide +kernel

theorem test_fips_inject : after State.fipsInject (exec (.fipsInject 6) { State.reset with fipsInject := 0x10 }) = some 0x16 := by
  decide +kernel

/-! ## Witnesses: a state and operands that meet the hypotheses of each statement -/

theorem witness_DecodeEncodeAgree : (Instr.hmacInit 15 15 2).wellFormed = true ∧
    decode 0x20FF0002 = .ok (.hmacInit 15 15 2) := by decide

theorem witness_DecodeMatchesOpcodeTable : decode 0x8500FFFF = .ok (.fipsInject 0xFFFF) ∧
    (⟨"HASH_INIT", 0xFF00FFFC, 0x10000000⟩ : OpcodeRow) ∈ opcodeRows ∧
    0x10FF0002#32 &&& 0xFF00FFFC = 0x10000000 ∧ ¬ pathThree 0x10FF0002 := by
  refine ⟨by decide, by decide, by decide, ?_⟩
  unfold pathThree
  decide

/-- A command with an empty port and one port of exactly `MAX_BUF` bytes. -/
def commanded (w : Word) (n : Nat) : State :=
  { small with env := { Env.empty with schedule := [.command w [] (zeros n) [] []] } }

theorem witness_StepRunsDecodedInstruction : (commanded 0x01000000 937).env.schedule =
      .command 0x01000000 [] (zeros 937) [] [] :: [] ∧
    (zeros 937).length ≤ (commanded 0x01000000 937).cfg.maxBuf ∧ ([] : Bytes).length ≤ (commanded 0x01000000 937).cfg.maxBuf ∧
    decode 0x01000000 = .ok .hwstat := by
  decide +kernel

theorem witness_IllegalWordFails : (commanded 0x10300003 937).env.schedule =
      .command 0x10300003 [] (zeros 937) [] [] :: [] ∧
    (zeros 937).length ≤ (commanded 0x10300003 937).cfg.maxBuf ∧ decode 0x10300003 = .error .illegalPath := by
  decide +kernel

theorem witness_StepWithoutCommand : State.reset.env.schedule = [] ∧
    (commanded 0x01000000 938).env.schedule = .command 0x01000000 [] (zeros 938) [] [] :: [] ∧
    (commanded 0x01000000 938).cfg.maxBuf < (zeros 938).length := by
  decide +kernel

theorem witness_ResetEventsClearState :
    ({ opened with env := { Env.empty with schedule := [.hardReset] } } : State).env.schedule = .hardReset :: [] ∧
    ({ opened with env := { Env.empty with schedule := [.resume] } } : State).env.schedule = .resume :: [] := by
  decide +kernel

theorem witness_StepKeepsGate : opened.GateWellFormed ∧ step opened = .next opened :=
  ⟨by unfold State.GateWellFormed; decide +kernel, rfl⟩

theorem witness_StepKeepsTrng : opened.TrngWellFormed ∧ step opened = .next opened :=
  ⟨by unfold State.TrngWellFormed; decide +kernel, rfl⟩

/-- One slot with a live context on the hash hardware. -/
def hashing : State :=
  { opened.setCtx 15 (.hash { HashCtx.fresh .sha256 .hw with count := 2 ^ 61 - 1, buf := zeros 63 }) with
    shaHwOwner := some 15 }

theorem witness_StepKeepsContexts : hashing.ContextsWellFormed ∧ step hashing = .next hashing := by
  refine ⟨?_, rfl⟩
  intro i
  by_cases h : i = 15
  · subst h
    refine ⟨?_, by decide +kernel⟩
    show HashCtx.WellFormed _
    unfold HashCtx.WellFormed
    decide +kernel
  · revert h
    revert i
    intro i h
    have hc : hashing.ctxAt i = .none := by
      revert h; revert i; decide +kernel
    rw [hc]
    exact ⟨trivial, fun _ => rfl⟩

theorem witness_StepKeepsHardwareOwner : hashing.HardwareOwnerRight ∧ step hashing = .next hashing :=
  ⟨by unfold State.HardwareOwnerRight; decide +kernel, rfl⟩

/-- A live instance at the sentinel, in a file that is otherwise dead. -/
def seeded : State :=
  { small with drbg := (Vector.replicate 16 Drbg.erased).set 1 (instanceWith 0xFFFFFFFF 1024) }

theorem witness_StepKeepsDrbgs : seeded.cfg.Lawful ∧ seeded.DrbgsWellFormed ∧ step seeded = .next seeded :=
  ⟨by decide +kernel, by unfold State.DrbgsWellFormed; decide +kernel, rfl⟩

/-- Ports of exactly `MAX_BUF` bytes. -/
def full : State := { small with in0 := zeros 937, out0 := zeros 937 }

theorem witness_StepKeepsPorts : full.cfg.Lawful ∧ full.ContextsWellFormed ∧ full.PortsWellFormed ∧
    step full = .next full := by
  refine ⟨by decide +kernel, ?_, by unfold State.PortsWellFormed; decide +kernel, rfl⟩
  intro i
  have hc : full.ctxAt i = .none := by revert i; decide +kernel
  rw [hc]
  exact ⟨trivial, fun _ => rfl⟩

/-- A command that closes the gate, and one that opens it. -/
theorem witness_StatusOnlyGainsBits :
    (∃ t, CommandLeads opened t ∧ opened.cryptoAllowed = true ∧ t.cryptoAllowed = false ∧ CommandsLead t t) ∧
    ∃ t, (resumed.issue 0x80000000 [] [] [] []).execute = .next t ∧ resumed.cryptoAllowed = false ∧
      t.cryptoAllowed = true := by
  refine ⟨⟨_, ⟨0x83008000, [], [], [], [], rfl⟩, by decide +kernel, by decide +kernel, .refl⟩,
    _, rfl, by decide +kernel, by decide +kernel⟩

/-- An `HMAC` context in slot 1 behind a closed gate. -/
def closedHmac : State :=
  { small with fipsStatus := 0x80000000 }.setCtx 1 (.hmac (pending .sha256 []) (rep 9 64))

theorem witness_ClosedGateStopsCommands :
    (Instr.gated .trngWord = true ∧ (∀ slot, Instr.trngWord ≠ .hmacFinal slot) ∧ State.reset.cryptoAllowed = false ∧
      State.reset.engineBusy = false) ∧
    (closedHmac.cryptoAllowed = false ∧ (1 : BitVec 4).toNat < closedHmac.cfg.nCtx ∧
      closedHmac.ctxAt 1 = .hmac (pending .sha256 []) (rep 9 64)) ∧
    closedHmac.cfg.nCtx ≤ (2 : BitVec 4).toNat ∧ ∀ c okey, closedHmac.ctxAt 0 ≠ .hmac c okey := by
  refine ⟨⟨rfl, by simp, by decide +kernel, by decide +kernel⟩, by decide +kernel, by decide +kernel, ?_⟩
  intro c okey
  rw [show closedHmac.ctxAt 0 = .none by decide +kernel]
  simp

theorem witness_CommandsLeaveInputs : (∃ t, exec .hwstat opened = .next t) ∧ opened.engineBusy = false ∧
    Port.in0 ≠ .out0 ∧ Port.in0 ≠ .out1 := ⟨⟨_, rfl⟩, by decide +kernel, by decide, by decide⟩

/-- The four result kinds all occur. -/
theorem witness_ResultKindsOfCommands : after (fun t => t.res) (exec .hwstat opened) = some 0 ∧
    after (fun t => t.res) (exec .ecdsaVerify opened) = some 1 ∧
    after (fun t => t.res) (exec .p256KeyFromBytes (ports (toBE (p256N - 1) 32) [] [] [])) = some 2 ∧
    after (fun t => t.res) (exec (.drbgGenerate 1 937) seeded) = some 3 := by
  decide +kernel

theorem witness_ErrorBitsOfCommands : ∃ t, exec (.fipsThrowErr 0x8000) opened = .next t ∧
    t.fipsStatus &&& errorMask ≠ opened.fipsStatus &&& errorMask := ⟨_, rfl, by decide +kernel⟩

theorem witness_OtherSlotsUnchanged : (∃ t, exec (.hashInit 3 1 2) opened = .next t) ∧
    (Instr.hashInit 3 1 2).ctxSlot ≠ some 2 ∧ (Instr.hashInit 3 1 2).drbgSlot ≠ some 1 ∧
    Instr.ctxSlot .hwstat = none := ⟨⟨_, rfl⟩, by decide, by decide, rfl⟩

theorem witness_DrawsOfCommands : (∃ t, exec .p256BaseMul opened = .next t) ∧ Instr.asksNoise .p256BaseMul = false ∧
    Instr.makesDraws .trngStartup = false := ⟨⟨_, rfl⟩, rfl, rfl⟩

/-- Every path selector, with the hardware free, held by the slot itself and held by another. -/
theorem witness_InitsMakeContexts : opened.cryptoAllowed = true ∧ (15 : BitVec 4).toNat < opened.cfg.nCtx ∧
    hashOfTag 5 = some .sha512 ∧ (0 : BitVec 2) ≠ 3 ∧ (2 : BitVec 2) ≠ 3 ∧ opened.shaHwOwner = none ∧
    hashing.cryptoAllowed = true ∧ hashing.shaHwOwner = some 15 ∧ (15 : BitVec 4) ≠ 0 ∧
    small.cfg.nCtx ≤ (2 : BitVec 4).toNat ∧ 5 < (6 : BitVec 4).toNat := by
  decide +kernel

/-- A context one byte short of the bound of R155, of either kind. -/
def nearLimit (kind : HashCtx → CtxSlot) (data : Bytes) (phase : Phase) : State :=
  { small with in0 := data }.setCtx 1 (kind { pending .sha256 (zeros 62) with count := 2 ^ 61 - 2, phase := phase })

theorem witness_UpdatesAbsorbInput :
    (nearLimit .hash [1] .active).cryptoAllowed = true ∧ (1 : BitVec 4).toNat < (nearLimit .hash [1] .active).cfg.nCtx ∧
    (2 ^ 61 - 2 + ([1] : Bytes).length < 2 ^ 61) ∧
    (nearLimit .hash [1] .active).ctxAt 1 = .hash { pending .sha256 (zeros 62) with count := 2 ^ 61 - 2 } ∧
    (nearLimit (fun c => .hmac c (zeros 64)) [1] .active).ctxAt 1 =
      .hmac { pending .sha256 (zeros 62) with count := 2 ^ 61 - 2 } (zeros 64) := by
  decide +kernel

/-- An absent slot, a slot of no kind, a context at the bound, a finalized one. -/
theorem witness_DeadContextsFail :
    small.cryptoAllowed = true ∧ small.cfg.nCtx ≤ (2 : BitVec 4).toNat ∧ small.ctxAt 0 = .none ∧
    (nearLimit .hash [1, 2] .active).ctxAt 1 = .hash { pending .sha256 (zeros 62) with count := 2 ^ 61 - 2 } ∧
    2 ^ 61 ≤ 2 ^ 61 - 2 + ([1, 2] : Bytes).length ∧
    (nearLimit .hash [] .finalized).ctxAt 1 =
      .hash { pending .sha256 (zeros 62) with count := 2 ^ 61 - 2, phase := .finalized } ∧
    (nearLimit (fun c => .hmac c (zeros 64)) [] .finalized).ctxAt 1 =
      .hmac { pending .sha256 (zeros 62) with count := 2 ^ 61 - 2, phase := .finalized } (zeros 64) := by
  decide +kernel

theorem witness_FinalsAnswerDigests :
    hashing.cryptoAllowed = true ∧ (15 : BitVec 4).toNat < hashing.cfg.nCtx ∧
    hashing.ctxAt 15 = .hash { HashCtx.fresh .sha256 .hw with count := 2 ^ 61 - 1, buf := zeros 63 } ∧
    (HashCtx.fresh .sha256 .hw).phase = .active ∧
    (nearLimit .hash [] .finalized).ctxAt 1 =
      .hash { pending .sha256 (zeros 62) with count := 2 ^ 61 - 2, phase := .finalized } ∧
    (nearLimit (fun c => .hmac c (zeros 64)) [] .active).ctxAt 1 =
      .hmac { pending .sha256 (zeros 62) with count := 2 ^ 61 - 2 } (zeros 64) ∧
    (nearLimit (fun c => .hmac c (zeros 64)) [] .finalized).ctxAt 1 =
      .hmac { pending .sha256 (zeros 62) with count := 2 ^ 61 - 2, phase := .finalized } (zeros 64) := by
  decide +kernel

theorem witness_StreamedHashIsHash : opened.cryptoAllowed = true ∧ (15 : BitVec 4).toNat < opened.cfg.nCtx ∧
    hashOfTag 1 = some .sha1 ∧ (2 : BitVec 2) ≠ 3 ∧ opened.shaHwOwner = none ∧
    ([[], zeros 65, [1]] : List Bytes).flatten.length < 2 ^ 61 := by
  decide +kernel

theorem witness_StreamedHmacIsHmac : opened.cryptoAllowed = true ∧ (15 : BitVec 4).toNat < opened.cfg.nCtx ∧
    hashOfTag 5 = some .sha512 ∧ (2 : BitVec 2) ≠ 3 ∧ opened.shaHwOwner = none ∧
    HashAlg.sha512.blockBytes + ([[], zeros 129] : List Bytes).flatten.length < 2 ^ 61 := by
  decide +kernel

theorem witness_KeyBlockIsOneBlock : HashAlg.sha256.blockBytes < (zeros 65).length ∧
    (zeros 64).length ≤ HashAlg.sha256.blockBytes ∧ (zeros 64).length = HashAlg.sha256.blockBytes := by
  decide

theorem witness_HkdfAnswersKeyMaterial : opened.cryptoAllowed = true ∧ (8160 : BitVec 16).toNat ≤ 8160 ∧
    (8160 : BitVec 16).toNat ≤ opened.cfg.maxBuf ∧ (2 : BitVec 4) ≠ 3 ∧ 8160 < (8161 : BitVec 16).toNat ∧
    small.cfg.maxBuf < (938 : BitVec 16).toNat := by
  decide +kernel

/-- The samples of the good noise alternate. -/
theorem good_noise_alternates (n : Nat) : (sampleStream (List.replicate n 0xAAAAAAAA)).IsChain (· ≠ ·) ∧
    ∀ y ∈ (sampleStream (List.replicate n 0xAAAAAAAA)).head?, y = false := by
  induction n with
  | zero => simp [sampleStream]
  | succ n ih =>
    have h : sampleStream (List.replicate (n + 1) 0xAAAAAAAA) =
        samplesOf 0xAAAAAAAA ++ sampleStream (List.replicate n 0xAAAAAAAA) := by
      simp [sampleStream, List.replicate_succ]
    have hl : (samplesOf 0xAAAAAAAA).getLast? = some true := by decide
    have hh : (samplesOf 0xAAAAAAAA).head? = some false := by decide
    rw [h, List.isChain_append]
    refine ⟨⟨by decide, ih.1, ?_⟩, ?_⟩
    · intro x hx y hy
      rw [hl] at hx
      rw [ih.2 y hy, ← Option.some.inj hx]
      decide
    · intro y hy
      rw [List.head?_append, hh] at hy
      exact (Option.some.inj hy).symm

theorem good_noise_has_no_long_run : NoLongRun (sampleStream goodNoise) := by
  intro b h
  have hc := (good_noise_alternates 128).1.infix h
  simp [List.replicate_succ] at hc

theorem good_noise_is_fair : WindowsFair goodNoise := by
  intro window hw hl
  obtain ⟨-, hr⟩ := List.infix_replicate_iff.mp hw
  rw [hr, hl]
  decide +kernel

theorem bad_noise_has_a_long_run : ¬ NoLongRun (sampleStream (List.replicate 128 0)) := by
  intro h
  apply h false
  decide +kernel

theorem witness_TrngStartupJudgesNoise :
    resumed.hasError = false ∧ resumed.trng.failed = false ∧ resumed.fipsInject &&& 0x6 = 0 ∧
    resumed.env.noise = goodNoise ++ [] ∧ goodNoise.length = 128 ∧ NoLongRun (sampleStream goodNoise) ∧
    WindowsFair goodNoise ∧ ({ resumed with env := { Env.empty with noise := List.replicate 128 0 } } : State).env.noise =
      List.replicate 128 0 ++ [] ∧ (List.replicate 128 (0 : Word)).length = 128 ∧
    ¬ (NoLongRun (sampleStream (List.replicate 128 0)) ∧ WindowsFair (List.replicate 128 0)) ∧
    ({ resumed with fipsInject := 4 } : State).fipsInject &&& 0x6 ≠ 0 ∧
    ({ resumed with fipsStatus := 0x8000 } : State).hasError = true :=
  ⟨by decide +kernel, by decide +kernel, by decide +kernel, by decide +kernel, by decide +kernel,
    good_noise_has_no_long_run, good_noise_is_fair, by decide +kernel, by decide +kernel,
    fun h => bad_noise_has_a_long_run h.1, by decide +kernel, by decide +kernel⟩

/-- The opened state with this noise to come. -/
def noisy (ws : List Word) : State := { opened with env := { Env.empty with noise := ws } }

/-- A word that passes, and one whose step fails by a run. -/
theorem witness_TrngWordDelivers :
    opened.cryptoAllowed = true ∧ opened.trng.healthy = true ∧ opened.trng.failed = false ∧
    (noisy [0xAAAAAAAA]).env.nextNoise = 0xAAAAAAAA ∧ (opened.trng.runTest (samplesOf 0xAAAAAAAA)).2 = false ∧
    proportionFails (slideWindow opened.trng.window 0xAAAAAAAA) = false ∧ opened.fipsInject &&& 0x6 = 0 ∧
    (({ opened.trng with runLen := 51 } : Trng).runTest (samplesOf 1)).2 = true := by
  decide +kernel

theorem witness_DrbgSlotCommands :
    small.cryptoAllowed = true ∧ (1 : BitVec 4).toNat < small.cfg.nDrbg ∧
    (ports [] [] [] [0, 4, 0, 0]).in3 = [(1024 : Word).extractLsb' 0 8, (1024 : Word).extractLsb' 8 8,
      (1024 : Word).extractLsb' 16 8, (1024 : Word).extractLsb' 24 8] ∧
    (seeded.drbgAt 1).cookie = .valid ∧ (ports (zeros 32) (zeros 32) [] []).in0.length = 32 ∧
    (ports (zeros 32) (zeros 32) [] []).in1.length = 32 ∧ small.cfg.nDrbg ≤ (2 : BitVec 4).toNat ∧
    (ports [] [] [] [0, 4, 0]).in3.length ≠ 4 ∧ (seeded.drbgAt 0).cookie = .invalid ∧
    (ports (zeros 31) (zeros 32) [] []).in0.length ≠ 32 ∧ (ports (zeros 32) (zeros 33) [] []).in1.length ≠ 32 := by
  decide +kernel

/-- A live instance in slot 0 with this counter and threshold, and noise to come. -/
def drawing (counter threshold : Word) (ws : List Word) : State :=
  (noisy ws).setDrbg 0 (instanceWith counter threshold)

theorem witness_DrbgGenerateAnswers :
    (drawing 1024 1024 []).cryptoAllowed = true ∧ (0 : BitVec 4).toNat < (drawing 1024 1024 []).cfg.nDrbg ∧
    ((drawing 1024 1024 []).drbgAt 0).cookie = .valid ∧ (937 : BitVec 16).toNat ≤ 937 ∧
    ((drawing 1024 1024 []).drbgAt 0).reseedCounter ≠ (drawing 1024 1024 []).cfg.noAutoReseed ∧
    ((drawing 1024 1024 []).drbgAt 0).reseedCounter.toNat ≤ ((drawing 1024 1024 []).drbgAt 0).reseedThreshold.toNat ∧
    small.cfg.nDrbg ≤ (2 : BitVec 4).toNat ∧ (State.reset.drbgAt 0).cookie = .invalid ∧ 937 < (938 : BitVec 16).toNat ∧
    ((drawing 0xFFFFFFFF 1024 []).drbgAt 0).reseedCounter = (drawing 0xFFFFFFFF 1024 []).cfg.noAutoReseed := by
  decide +kernel

/-- The bytes of eight good words. -/
theorem witness_AutoReseedIsReseed :
    (drawing 2 1 goodNoise).cryptoAllowed = true ∧ (drawing 2 1 goodNoise).cfg.Lawful ∧
    ((drawing 2 1 goodNoise).drbgAt 0).cookie = .valid ∧
    ((drawing 2 1 goodNoise).drbgAt 0).reseedCounter ≠ (drawing 2 1 goodNoise).cfg.noAutoReseed ∧
    1 ≤ ((drawing 2 1 goodNoise).drbgAt 0).reseedThreshold.toNat ∧
    ((drawing 2 1 goodNoise).drbgAt 0).reseedThreshold.toNat < ((drawing 2 1 goodNoise).drbgAt 0).reseedCounter.toNat ∧
    ((drawing 2 1 goodNoise).trngBytes 32).1 = some (rep 0xAA 32) ∧ (drawing 2 1 goodNoise).cfg.entropyBytes = 32 ∧
    ((drawing 1 0 goodNoise).drbgAt 0).reseedThreshold.toNat < ((drawing 1 0 goodNoise).drbgAt 0).reseedCounter.toNat ∧
    ((drawing 1 0 goodNoise).drbgAt 0).reseedCounter ≠ (drawing 1 0 goodNoise).cfg.noAutoReseed ∧
    ((drawing 1 0 goodNoise).trngBytes 32).1 = some (rep 0xAA 32) ∧
    ((drawing 2 1 [0, 0]).trngBytes 32).1 = none := by
  decide +kernel

/-- Eight good words and then a run: the entropy is delivered and the nonce is not. -/
def noNonce : State := noisy (List.replicate 8 0xAAAAAAAA ++ [0, 0])

/-- A live singleton; a dead one with noise for both strings, for one, for none; requests of two pieces, one and none. -/
theorem witness_RandBytesAnswers :
    (drawing 1023 1024 []).cryptoAllowed = true ∧ 0 < (drawing 1023 1024 []).cfg.nDrbg ∧
    (938 : BitVec 16).toNat ≤ (drawing 1023 1024 []).cfg.maxBuf ∧ ((drawing 1023 1024 []).drbgAt 0).cookie = .valid ∧
    1023 + (938 + 936) / 937 ≤ (1024 : Word).toNat + 1 ∧
    1023 + (938 + 936) / 937 ≤ (drawing 1023 1024 []).cfg.noAutoReseed.toNat ∧
    randPieces 938 = [937, 1] ∧ randPieces 937 = [937] ∧ randPieces 0 = [] ∧
    (noisy goodNoise).cryptoAllowed = true ∧ ((noisy goodNoise).drbgAt 0).cookie = .invalid ∧
    ((noisy goodNoise).trngBytes (noisy goodNoise).cfg.entropyBytes).1 = some (rep 0xAA 32) ∧
    (((noisy goodNoise).trngBytes (noisy goodNoise).cfg.entropyBytes).2.trngBytes (noisy goodNoise).cfg.nonceBytes).1 =
      some (rep 0xAA 16) ∧
    (noNonce.drbgAt 0).cookie = .invalid ∧ (noNonce.trngBytes noNonce.cfg.entropyBytes).1 = some (rep 0xAA 32) ∧
    ((noNonce.trngBytes noNonce.cfg.entropyBytes).2.trngBytes noNonce.cfg.nonceBytes).1 = none ∧
    ((noisy [0, 0]).drbgAt 0).cookie = .invalid ∧
    ((noisy [0, 0]).trngBytes (noisy [0, 0]).cfg.entropyBytes).1 = none ∧ small.cfg.maxBuf < (938 : BitVec 16).toNat := by
  decide +kernel

/-- An AES-256 key, an IV and two blocks; one block; and data that is no whole block. -/
def ciphering (n : Nat) : State := ports (zeros 32) (zeros 16) (zeros n) []

theorem witness_AesBlockCommands : (ciphering 16).cryptoAllowed = true ∧ (2 : BitVec 4).toNat ≤ 2 ∧
    (ciphering 16).in0.length = 16 + 8 * (2 : BitVec 4).toNat ∧ (ciphering 16).in2.length = 16 ∧
    2 < (3 : BitVec 4).toNat ∧ (ciphering 16).in0.length ≠ 16 + 8 * (1 : BitVec 4).toNat ∧
    (ciphering 17).in2.length ≠ 16 := by
  decide +kernel

theorem witness_AesCtrKeystream : (ciphering 17).cryptoAllowed = true ∧
    (ciphering 17).in0.length = 16 + 8 * (2 : BitVec 4).toNat ∧ (ciphering 17).in1.length = 16 ∧
    16 < (ciphering 17).in2.length ∧ (ports (zeros 32) (zeros 15) [] []).in1.length ≠ 16 := by
  decide +kernel

theorem witness_AesCbcChains : (ciphering 32).cryptoAllowed = true ∧
    (ciphering 32).in0.length = 16 + 8 * (2 : BitVec 4).toNat ∧ (ciphering 32).in1.length = 16 ∧
    (ciphering 32).in2.length % 16 = 0 ∧ 1 < (ciphering 32).in2.length / 16 ∧ (ciphering 0).in2 = [] ∧
    (ciphering 17).in2.length % 16 ≠ 0 ∧ (ports (zeros 32) (zeros 15) [] []).in1.length ≠ 16 := by
  decide +kernel

theorem witness_AesCommandsInvert : (ciphering 16).cryptoAllowed = true ∧ (2 : BitVec 4).toNat ≤ 2 ∧
    (ciphering 16).in0.length = 16 + 8 * (2 : BitVec 4).toNat ∧ (ciphering 16).in2.length = 16 ∧
    (ciphering 16).in1.length = 16 ∧ (ciphering 16).in2.length % 16 = 0 := by
  decide +kernel

theorem witness_BignumFunctionsRight : 3 ≤ 3 ∧ 1 < 2 ∧ Nat.gcd 5 2 = 1 := by decide

/-- The raw engine on the modulus 15 in 512 bytes with this blinder to come. -/
def powering (r : Nat) : State :=
  { ports (toLE 14 512) (toLE 3 512) (toLE 15 512) [3, 0, 0, 0] with env := { Env.empty with draws := [r, 1] } }

/-- The key `(15, 3, 3)` is consistent: `t^9 = t` for every unit `t`. -/
theorem toy_key_consistent (t : Nat) (_ : Nat.gcd t 15 = 1) : t ^ (3 * 3) % 15 = t % 15 := by
  rw [Nat.pow_mod]
  have h : t % 15 < 15 := Nat.mod_lt _ (by decide)
  revert h
  generalize t % 15 = r
  revert r
  decide

theorem witness_ModexpCommandsAnswer :
    (powering 2).cryptoAllowed = true ∧ KeyOk 512 (powering 2).in2 (powering 2).in3 (le (powering 2).in2) ∧
    (powering 2).in0.length = (powering 2).in2.length ∧ (powering 2).in1.length = (powering 2).in2.length ∧
    le (powering 2).in0 < le (powering 2).in2 ∧ Nat.gcd (powering 2).nextBlinder (le (powering 2).in2) = 1 ∧
    (∀ t, Nat.gcd t 15 = 1 → t ^ (3 * 3) % 15 = t % 15) ∧ le (powering 2).in2 = 15 ∧ le (powering 2).in1 = 3 ∧
    le (powering 2).in3 = 3 ∧ Nat.gcd (powering 3).nextBlinder (le (powering 3).in2) ≠ 1 := by
  refine ⟨by decide +kernel, by unfold KeyOk; decide +kernel, by decide +kernel, by decide +kernel, by decide +kernel,
    by decide +kernel, toy_key_consistent, by decide +kernel, by decide +kernel, by decide +kernel, by decide +kernel⟩

/-- An even modulus, a modulus of 31 bytes, an input equal to the modulus, an exponent of another length. -/
theorem witness_ModexpCommandsAnswer_fails :
    ¬ KeyOk 512 (toLE 14 32) [3, 0, 0, 0] (le (toLE 14 32)) ∧ ¬ KeyOk 512 (toLE 15 31) [3, 0, 0, 0] (le (toLE 15 31)) ∧
    (ports (toLE 15 32) (toLE 3 31) (toLE 15 32) [3, 0, 0, 0]).cryptoAllowed = true ∧
    le (toLE 15 32) ≤ le (toLE 15 32) ∧ (toLE 3 31).length ≠ (toLE 15 32).length := by
  refine ⟨by unfold KeyOk; decide +kernel, by unfold KeyOk; decide +kernel, by decide +kernel, by decide +kernel,
    by decide +kernel⟩

/-- The largest modulus of 256 bytes, all of whose bits are set, with a message of `n` bytes and draws to come. -/
def wrapping (n : Nat) : State :=
  { ports (zeros n) (toBE 3 256) (rep 0xFF 256) [3, 0, 0, 0] with env := { Env.empty with draws := List.replicate 300 2 } }

/-- Messages of the longest length that each padding admits. -/
theorem witness_RsaEncryptAnswers : (wrapping 256).cryptoAllowed = true ∧
    KeyOk 256 (wrapping 256).in2 (wrapping 256).in3 (be (wrapping 256).in2) ∧
    (wrapping 256).in0.length ≤ (wrapping 256).in2.length ∧ (wrapping 245).in0.length + 11 ≤ (wrapping 245).in2.length ∧
    hashOfTag 5 = some .sha512 ∧ (5 : BitVec 4) ≠ 2 ∧
    (wrapping 126).in0.length + 2 * HashAlg.sha512.digestBytes + 2 ≤ (wrapping 126).in2.length := by
  refine ⟨by decide +kernel, by unfold KeyOk; decide +kernel, by decide +kernel, by decide +kernel, by decide,
    by decide, by decide +kernel⟩

/-- Selectors on both sides of the table of R295, an even modulus, and messages one byte too long for each padding. -/
theorem witness_RsaEncryptAnswers_fails : CipherSelectorsLegal 2 5 ∧ ¬ CipherSelectorsLegal 2 2 ∧ ¬ CipherSelectorsLegal 3 3 ∧
    ¬ CipherSelectorsLegal 1 3 ∧ ¬ KeyOk 256 (rep 0xFE 256) [3, 0, 0, 0] (be (rep 0xFE 256)) ∧
    ¬ KeyOk 256 (rep 0xFF 288) [3, 0, 0, 0] (be (rep 0xFF 288)) ∧ (wrapping 257).in2.length < (wrapping 257).in0.length ∧
    (wrapping 246).in2.length < (wrapping 246).in0.length + 11 ∧
    (wrapping 127).in2.length < (wrapping 127).in0.length + 2 * HashAlg.sha512.digestBytes + 2 := by
  unfold CipherSelectorsLegal KeyOk
  decide +kernel

theorem witness_RsaDecryptAnswers : (wrapping 256).cryptoAllowed = true ∧
    KeyOk 256 (wrapping 256).in2 (wrapping 256).in3 (be (wrapping 256).in2) ∧
    cipherPadding 2 3 = some (.oaep .sha256) ∧ cipherPadding 1 0 = some .pkcs1 ∧
    (wrapping 256).in0.length = (wrapping 256).in2.length ∧ be (wrapping 256).in0 < be (wrapping 256).in2 ∧
    (wrapping 256).in2.length ≤ (wrapping 256).in1.length ∧ (wrapping 256).in1.length = (wrapping 256).in2.length ∧
    Nat.gcd (wrapping 256).nextBlinder (be (wrapping 256).in2) = 1 := by
  refine ⟨by decide +kernel, by unfold KeyOk; decide +kernel, by decide, by decide, by decide +kernel,
    by decide +kernel, by decide +kernel, by decide +kernel, by decide +kernel⟩

/-- A modulus of 32 bytes whose value is 15, with the factor 3 as the next blinder. -/
def sharing : State :=
  { ports (zeros 32) (toBE 3 32) (toBE 15 32) [3, 0, 0, 0] with env := { Env.empty with draws := [3] } }

/-- A ciphertext equal to the modulus, an exponent one byte short, and a blinder that shares a factor. -/
theorem witness_RsaDecryptAnswers_fails : sharing.cryptoAllowed = true ∧
    KeyOk 256 sharing.in2 sharing.in3 (be sharing.in2) ∧ cipherPadding 0 0 = some .null ∧
    sharing.in0.length = sharing.in2.length ∧ be sharing.in0 < be sharing.in2 ∧ sharing.in1.length = sharing.in2.length ∧
    Nat.gcd sharing.nextBlinder (be sharing.in2) ≠ 1 ∧ be (toBE 15 32) ≤ be (toBE 15 32) ∧
    (toBE 3 31).length < sharing.in2.length := by
  unfold KeyOk
  decide +kernel

/-- Illegal selectors, a digest of another length, a modulus too short for either padding, a block that is not below the
modulus, and a blinder that shares a factor. -/
theorem witness_RsaSignAnswers_fails : SignatureSelectorsLegal 3 5 ∧ ¬ SignatureSelectorsLegal 2 3 ∧
    ¬ SignatureSelectorsLegal 1 2 ∧ signaturePadding 1 3 = some (.pkcs1Hash .sha256) ∧
    (zeros 31).length ≠ signatureOperandLen (.pkcs1Hash .sha256) 32 ∧ emsaPkcs1 .sha256 sharing.in0 32 = none ∧
    signaturePadding 3 3 = some (.pss .sha256) ∧ pssFits .sha256 (be sharing.in2) = false ∧
    signaturePadding 0 0 = some .null ∧ sharing.in0.length = signatureOperandLen .null sharing.in2.length ∧
    be sharing.in0 < be sharing.in2 ∧ Nat.gcd sharing.nextBlinder (be sharing.in2) ≠ 1 ∧
    be sharing.in2 ≤ be (toBE 15 32) := by
  unfold SignatureSelectorsLegal
  decide +kernel

/-- The three kinds of signature padding, each with its block below the modulus. -/
theorem witness_RsaSignAnswers : (wrapping 32).cryptoAllowed = true ∧
    KeyOk 256 (wrapping 32).in2 (wrapping 32).in3 (be (wrapping 32).in2) ∧
    (wrapping 32).in1.length = (wrapping 32).in2.length ∧
    Nat.gcd (wrapping 32).nextBlinder (be (wrapping 32).in2) = 1 ∧
    signaturePadding 0 0 = some .null ∧ (wrapping 256).in0.length = signatureOperandLen .null 256 ∧
    be (wrapping 256).in0 < be (wrapping 256).in2 ∧
    signaturePadding 1 3 = some (.pkcs1Hash .sha256) ∧ (wrapping 32).in0.length = signatureOperandLen (.pkcs1Hash .sha256) 256 ∧
    (emsaPkcs1 .sha256 (wrapping 32).in0 256).map (fun em => decide (be em < be (wrapping 32).in2)) = some true ∧
    signaturePadding 3 3 = some (.pss .sha256) ∧ pssFits .sha256 (be (wrapping 32).in2) = true ∧
    be (pssEncode .sha256 (wrapping 32).in0 (State.drawBytes (pssSaltLen .sha256 (be (wrapping 32).in2)) (wrapping 32)).1
      (be (wrapping 32).in2) 256) < be (wrapping 32).in2 := by
  refine ⟨by decide +kernel, by unfold KeyOk; decide +kernel, by decide +kernel, by decide +kernel, by decide,
    by decide +kernel, by decide +kernel, by decide, by decide +kernel, by decide +kernel, by decide, by decide +kernel,
    by decide +kernel⟩

/-- A signature of 512 bytes. -/
def verifying : State := ports (zeros 32) (toBE 3 512) (rep 0xFF 512) [3, 0, 0, 0]

theorem witness_RsaVerifyAnswers : verifying.cryptoAllowed = true ∧
    KeyOk 512 verifying.in2 verifying.in3 (be verifying.in2) ∧ signaturePadding 3 3 = some (.pss .sha256) ∧
    signaturePadding 1 3 = some (.pkcs1Hash .sha256) ∧ verifying.in1.length = verifying.in2.length ∧
    verifying.in0.length = signatureOperandLen (.pss .sha256) verifying.in2.length ∧
    be verifying.in1 < be verifying.in2 ∧ verifying.in0.length ≠ signatureOperandLen .null verifying.in2.length ∧
    be verifying.in2 ≤ be (rep 0xFF 512) := by
  refine ⟨by decide +kernel, by unfold KeyOk; decide +kernel, by decide, by decide, by decide +kernel,
    by decide +kernel, by decide +kernel, by decide +kernel, by decide +kernel⟩

theorem witness_PaddingsRoundTrip : 8 ≤ (rep 1 8).length ∧ (∀ b ∈ rep 1 8, b ≠ 0) ∧
    (zeros 32).length = HashAlg.sha256.digestBytes ∧ (zeros 62).length + 2 * HashAlg.sha256.digestBytes + 2 ≤ 128 ∧
    pssFits .sha256 (2 ^ 272) = true ∧ (zeros 0).length = pssSaltLen .sha256 (2 ^ 272) ∧ pssLen (2 ^ 272) ≤ 34 := by
  decide +kernel

theorem witness_PointMulCommands : (ports (toBE (p256N - 1) 32) gBytes [] []).cryptoAllowed = true ∧
    (ports (toBE (p256N - 1) 32) gBytes [] []).in0.length = 32 ∧ 1 ≤ be (toBE (p256N - 1) 32) ∧
    be (toBE (p256N - 1) 32) < p256N ∧ gBytes.length = 64 ∧
    onCurve (be (gBytes.take 32)) (be (gBytes.drop 32)) = true ∧ onCurve (be (gBytes.take 32)) 0 = false ∧
    be (zeros 32) = 0 ∧ p256N ≤ be (toBE p256N 32) ∧ (zeros 31).length ≠ 32 ∧ (zeros 63).length ≠ 64 := by
  decide +kernel

/-- The generator is on the curve. -/
theorem witness_PointMulIsRepeatedAddition : onCurve (be (gBytes.take 32)) (be (gBytes.drop 32)) = true := by
  decide +kernel

/-- The largest scalar that gives `RETRY`, an injected failure, and draws that are accepted at once. -/
theorem witness_KeyFromBytesAnswers :
    (ports (toBE (p256N - 1) 32) [] [] []).in0.length = 32 ∧ p256N - 1 ≤ be (toBE (p256N - 1) 32) ∧
    be (toBE (p256N - 2) 32) < p256N - 1 ∧ ({ keyState with fipsInject := 0x80 } : State).fipsInject.getLsbD 7 = true ∧
    keyState.cryptoAllowed = true ∧ keyState.fipsInject.getLsbD 7 = false ∧ 1 ≤ keyState.cfg.p256MaxTries ∧
    keyState.env.draws = 9 :: 0 :: 0 :: 8 :: 7 :: 6 :: [] ∧ 0 % 2 ^ 256 < p256N - 1 ∧ be keyState.in0 = 0 ∧
    pointMul (0 + 1) p256G = .affine (be (gBytes.take 32)) (be (gBytes.drop 32)) ∧
    signRaw (0 % 2 ^ 256 + 1) (0 + 1) (0 % 2 ^ 256) = some (be (gBytes.take 32), be (gBytes.take 32)) ∧
    ecdsaVerifyValue (be (gBytes.take 32)) (be (gBytes.drop 32)) (0 % 2 ^ 256) (be (gBytes.take 32))
      (be (gBytes.take 32)) = true := by
  decide +kernel

/-- The draws of a first try whose candidate is rejected, and of one whose signature is zero (`d = 1`, `k = 1`, `e = n - Gx`),
each followed by the draws of an accepted try. -/
def retried (c e : Nat) (used : List Nat) : State :=
  { keyState with env := { Env.empty with draws := 9 :: e :: c :: (used ++ [0, 0, 8, 7, 6]) } }

/-- Both kinds of rejected try, at the largest accepted and the smallest rejected candidate, and no try left. -/
theorem witness_KeyFromBytesAnswers_tries :
    (retried (p256N - 1) 5 []).cryptoAllowed = true ∧ be (retried (p256N - 1) 5 []).in0 = 0 ∧
    (retried (p256N - 1) 5 []).in0.length = 32 ∧ (retried (p256N - 1) 5 []).fipsInject.getLsbD 7 = false ∧
    (retried (p256N - 1) 5 []).cfg.p256MaxTries = 15 + 1 ∧ p256N - 1 ≤ (p256N - 1) % 2 ^ 256 ∧
    (retried 0 (p256N - be (gBytes.take 32)) [1, 2, 3]).env.draws =
      9 :: (p256N - be (gBytes.take 32)) :: 0 :: ([1, 2, 3] ++ [0, 0, 8, 7, 6]) ∧ 0 % 2 ^ 256 < p256N - 1 ∧
    signRaw (0 % 2 ^ 256 + 1) (0 + 1) ((p256N - be (gBytes.take 32)) % 2 ^ 256) = none ∧
    ({ keyState with cfg := { Config.suggested with p256MaxTries := 0 } } : State).cfg.p256MaxTries = 0 ∧
    (zeros 31).length ≠ 32 := by
  decide +kernel

/-- A key, a digest and a live instance in slot 1 at its threshold. -/
def signing : State := (ports (hex 32 1) (hex 32 1) (zeros 32) []).setDrbg 1 (instanceWith 1 1)

/-- The nonce 1, and a nonce from the instance that is accepted at once. -/
theorem witness_SigningAnswers :
    signing.cryptoAllowed = true ∧ signing.in0.length = 32 ∧ signing.in1.length = 32 ∧ signing.in2.length = 32 ∧
    1 ≤ be signing.in0 ∧ be signing.in0 < p256N ∧ 1 ≤ be signing.in1 ∧ be signing.in1 < p256N ∧
    pointMul (be signing.in0) p256G = .affine (be (gBytes.take 32)) (be (gBytes.drop 32)) ∧
    (1 : BitVec 4).toNat < signing.cfg.nDrbg ∧ 1 ≤ signing.cfg.p256MaxTries ∧ (signing.drbgAt 1).cookie = .valid ∧
    (signing.drbgAt 1).reseedCounter ≠ signing.cfg.noAutoReseed ∧
    (signing.drbgAt 1).reseedCounter.toNat ≤ (signing.drbgAt 1).reseedThreshold.toNat ∧
    be (hmac .sha256 (signing.drbgAt 1).k (signing.drbgAt 1).v) < p256N - 1 ∧
    (signRaw (be (hmac .sha256 (signing.drbgAt 1).k (signing.drbgAt 1).v) + 1) (be signing.in1)
      (be signing.in2)).isSome = true := by
  decide +kernel

/-- The signing state with this digest and this instance in slot 1. -/
def resigned (digest : Nat) (d : Drbg) : State := (ports (hex 32 1) (hex 32 1) (hex 32 digest) []).setDrbg 1 d

/-- Operands that fail, an absent slot, an instance that is dead and one at the sentinel. -/
theorem witness_SigningAnswers_fails :
    (zeros 31).length ≠ 32 ∧ be (zeros 32) = 0 ∧ p256N ≤ be (toBE p256N 32) ∧ small.cfg.nDrbg ≤ (2 : BitVec 4).toNat ∧
    (resigned 0 Drbg.erased).cfg.p256MaxTries = 15 + 1 ∧ ((resigned 0 Drbg.erased).drbgGenerate 1 32 []).1 = .fail ∧
    ((resigned 0 (instanceWith 0xFFFFFFFF 9)).drbgAt 1).reseedCounter =
      (resigned 0 (instanceWith 0xFFFFFFFF 9)).cfg.noAutoReseed ∧
    ((resigned 0 (instanceWith 0xFFFFFFFF 9)).drbgGenerate 1 32 []).1 = .reseedNeeded := by
  decide +kernel

/-- An instance whose candidate is not below `n - 1` (found by search), and a digest for which the signature of the next
candidate is zero. -/
theorem witness_SigningAnswers_tries :
    ((resigned 0 { instanceWith 1 1 with v := hex 32 1846193454 }).drbgGenerate 1 32 []).1 = .ok ∧
    p256N - 1 ≤ be ((resigned 0 { instanceWith 1 1 with v := hex 32 1846193454 }).drbgGenerate 1 32 []).2.1 ∧
    ((resigned 0 (instanceWith 1 1)).drbgGenerate 1 32 []).1 = .ok ∧
    be ((resigned 0 (instanceWith 1 1)).drbgGenerate 1 32 []).2.1 < p256N - 1 ∧
    signRaw (be ((resigned 0 (instanceWith 1 1)).drbgGenerate 1 32 []).2.1 + 1) 1
      0x3ffc9c46daac564d6de9fd447c12d835353cbd9b29995761171709d8da42de04 = none := by
  decide +kernel

/-- A first call on an instance of threshold 0, which reseeds itself and gives a candidate that is accepted at once. -/
def selfReseeding : State :=
  { resigned 0 (instanceWith 1 0) with env := { Env.empty with noise := List.replicate 8 0xAAAAAAAA } }

theorem witness_SigningAnswers_reseeds : selfReseeding.cryptoAllowed = true ∧
    (selfReseeding.drbgAt 1).reseedThreshold.toNat < (selfReseeding.drbgAt 1).reseedCounter.toNat ∧
    (selfReseeding.drbgGenerate 1 32 []).1 = .ok ∧ be (selfReseeding.drbgGenerate 1 32 []).2.1 < p256N - 1 ∧
    (signRaw (be (selfReseeding.drbgGenerate 1 32 []).2.1 + 1) (be selfReseeding.in1) (be selfReseeding.in2)).isSome =
      true := by
  decide +kernel

/-- Operands one byte short and a whole signature, the largest coordinate. -/
theorem witness_EcdsaVerifyAnswers :
    (ports (zeros 63) (zeros 32) (zeros 64) []).in0.length ≠ 64 ∧ (ports (zeros 64) (zeros 31) (zeros 64) []).in1.length ≠ 32 ∧
    (ports (zeros 64) (zeros 32) (zeros 63) []).in2.length ≠ 64 ∧
    (ports (toBE (2 ^ 256 - 1) 32 ++ toBE 0 32) (toBE 0 32) (toBE 1 32 ++ toBE 1 32) []).cryptoAllowed = true ∧
    2 ^ 256 - 1 < 2 ^ 256 := by
  decide +kernel

theorem witness_BlindingIsInvisible : Instr.ecdsaSign 1 = .p256BaseMul ∨ Instr.ecdsaSign 1 = .p256PointMul ∨
    Instr.ecdsaSign 1 = .ecdsaSignRaw ∨ ∃ g, Instr.ecdsaSign 1 = .ecdsaSign g := .inr (.inr (.inr ⟨1, rfl⟩))

/-- An error state, an open gate, a resumed block with good noise, and a first power-on with an injected KAT failure. -/
theorem witness_PowerOnOpensGate :
    ({ opened with fipsStatus := 0xC0008000 } : State).hasError = true ∧ opened.cryptoAllowed = true ∧
    (resumed.fipsStatus &&& 0x4000FFFF = 0 ∧ resumed.engineBusy = false ∧ resumed.trng.failed = false ∧
      resumed.fipsInject &&& 0x6 = 0 ∧ resumed.env.noise = goodNoise ++ [] ∧ goodNoise.length = 128 ∧
      NoLongRun (sampleStream goodNoise) ∧ WindowsFair goodNoise ∧ resumed.pwrupDonePersist = true) ∧
    (¬ (NoLongRun (sampleStream (List.replicate 128 0)) ∧ WindowsFair (List.replicate 128 0)) ∧
      ({ resumed with trng := { Trng.afterReset with failed := true } } : State).trng.failed = true) ∧
    (resumed.fipsStatus = 0 ∧ ({ resumed with pwrupDonePersist := false } : State).pwrupDonePersist = false ∧
      (0x10 : BitVec 16) &&& 0x6 = 0 ∧
      ∃ id ∈ battery resumed.cfg, ({ resumed with fipsInject := 0x10 } : State).katGood id = false) := by
  refine ⟨by decide +kernel, by decide +kernel, ⟨by decide +kernel, by decide +kernel, by decide +kernel,
    by decide +kernel, by decide +kernel, by decide +kernel, good_noise_has_no_long_run, good_noise_is_fair,
    by decide +kernel⟩, ⟨fun h => bad_noise_has_a_long_run h.1, rfl⟩, by decide +kernel, rfl, by decide,
    .sha256, by decide +kernel, by decide +kernel⟩

/-- A mask without a TRNG bit and one with both. -/
theorem witness_ThrowAndInject : (0x8000 : BitVec 16) ≠ 0 ∧ (0x8000 : BitVec 16) &&& 0x6 = 0 ∧ (0x6 : BitVec 16) ≠ 0 ∧
    (0x6 : BitVec 16) &&& 0x6 ≠ 0 := by decide

/-- A good KAT, an injected one, and the three unknown selectors. -/
theorem witness_KatRuns : State.reset.engineBusy = false ∧ katOfSel 1 = some .sha256 ∧
    katOfSel 6 = some .rsa2048 ∧ State.reset.cfg.katRsaEnabled = true ∧
    State.reset.fipsInject.setWidth 32 &&& KatId.sha256.errorBit = 0 ∧
    katComputes State.reset.cfg .sha256 = true ∧
    ({ State.reset with fipsInject := 0x10 } : State).fipsInject.setWidth 32 &&& KatId.sha256.errorBit ≠ 0 ∧
    6 < (7 : BitVec 4).toNat ∧
    ({ State.reset with cfg := { Config.suggested with katRsaEnabled := false } } : State).cfg.katRsaEnabled = false := by
  decide +kernel

end Sys2Proof.Tests
end

section
/-! SUPPORT. The result kinds of the commands (R390): the kinds that a command can end with as data, and that a command's
outputs are empty where its kind is not `OK` (R31). -/

namespace Sys2Proof

open Sys2Proof.Machine

/-- The result kinds that a command can end with (R390). -/
def Instr.resultKinds : Instr → List Result
  | .hwstat | .hashSize _ | .hashBlockSize _ | .fipsStatus | .fipsInject _ => [.ok]
  | .p256KeyFromBytes | .ecdsaSignRaw => [.ok, .fail, .retry]
  | .drbgGenerate _ _ | .randBytes _ | .ecdsaSign _ => [.ok, .fail, .reseedNeeded]
  | _ => [.ok, .fail]

end Sys2Proof

namespace Sys2Proof.Machine

/-- The state after a command that ended with one of these kinds, with output only where the kind is `OK` (R31). -/
def State.EndsIn (kinds : List Result) (t : State) : Prop :=
  ∃ r ∈ kinds, t.res = r.code ∧ (r ≠ .ok → t.out0 = [] ∧ t.out1 = [])

/-- A command ends with one of these kinds. -/
def CommandEndsIn (kinds : List Result) (o : Outcome) : Prop := ∀ t, o = .next t → State.EndsIn kinds t

/-! The ends of a command (R31) -/

theorem Result.code_injective : Function.Injective Result.code := by
  intro a b
  cases a <;> cases b <;> decide

@[simp] theorem commandEndsIn_next {kinds : List Result} {t : State} :
    CommandEndsIn kinds (.next t) ↔ State.EndsIn kinds t :=
  ⟨fun h => h t rfl, fun h _ ht => by cases ht; exact h⟩

@[simp] theorem State.endsIn_ret {kinds : List Result} {s : State} {r : Result} {a b : Bytes} :
    State.EndsIn kinds (s.ret r a b) ↔ r ∈ kinds ∧ (r ≠ .ok → a = [] ∧ b = []) := by
  constructor
  · rintro ⟨r', hr, hcode, hout⟩
    obtain rfl : r = r' := Result.code_injective hcode
    exact ⟨hr, hout⟩
  · rintro ⟨hr, hout⟩
    exact ⟨r, hr, rfl, hout⟩

/-- The engine lock is no part of a command's end. -/
theorem State.endsIn_engineBusy {kinds : List Result} {t : State} {b : Bool} :
    State.EndsIn kinds { t with engineBusy := b } ↔ State.EndsIn kinds t := Iff.rfl

theorem State.endsIn_verdict {kinds : List Result} (hok : .ok ∈ kinds) (hfail : .fail ∈ kinds) (s : State) (good : Bool) :
    State.EndsIn kinds (s.verdict good) := by
  cases good <;> simp [hok, hfail]

/-! The frames of the commands -/

section Frames

variable {kinds : List Result} (hfail : .fail ∈ kinds) {s : State} {body : State → State}

include hfail

theorem State.endsIn_gated (h : ∀ u, State.EndsIn kinds (body u)) : State.EndsIn kinds (s.gated body) := by
  rcases s.gated_cases body with ⟨-, he⟩ | ⟨-, he⟩ <;> rw [he]
  · exact h s
  · simp [hfail]

theorem State.endsIn_rsaCommand (h : ∀ u, State.EndsIn kinds (body u)) : State.EndsIn kinds (s.rsaCommand body) :=
  State.endsIn_gated hfail (s := { s with engineBusy := true }) h

theorem State.endsIn_p256Command (h : ∀ u, State.EndsIn kinds (body u)) : State.EndsIn kinds (s.p256Command body) :=
  State.endsIn_gated hfail (s := { s with engineBusy := true }) h

theorem State.endsIn_aesCommand {keysize : BitVec 4} (h : ∀ u, State.EndsIn kinds (body u)) :
    State.EndsIn kinds (s.aesCommand keysize body) := by
  rcases s.aesCommand_cases keysize body with he | ⟨-, -, he⟩ <;> rw [he, State.endsIn_engineBusy]
  · simp [hfail]
  · exact h _

end Frames

/-! SYS (R350, R351) -/

theorem execEquals_endsIn (len : BitVec 16) (s : State) : CommandEndsIn [.ok, .fail] (execEquals len s) :=
  commandEndsIn_next.mpr (State.endsIn_verdict (by simp) (by simp) s _)

theorem execHwstat_endsIn (s : State) : CommandEndsIn [.ok] (execHwstat s) := by simp [execHwstat]

/-! HASH and HMAC (R150 to R154, R172 to R176) -/

theorem State.initContext_endsIn (s : State) (alg i : BitVec 4) (path : BitVec 2) (make : HashAlg → HashPath → CtxSlot) :
    State.EndsIn [.ok, .fail] (s.initContext alg i path make) := by
  rcases s.initContext_cases alg i path make with h | ⟨_, _, _, _, -, -, -, -, -, h⟩ <;> rw [h] <;> simp

theorem execHashInit_endsIn (alg i : BitVec 4) (path : BitVec 2) (s : State) :
    CommandEndsIn [.ok, .fail] (execHashInit alg i path s) :=
  commandEndsIn_next.mpr (s.initContext_endsIn alg i path _)

theorem execHashUpdate_endsIn (i : BitVec 4) (s : State) : CommandEndsIn [.ok, .fail] (execHashUpdate i s) := by
  refine commandEndsIn_next.mpr (State.endsIn_gated (by simp) fun s => ?_)
  split
  · split <;> simp
  · simp

theorem execHashFinal_endsIn (i : BitVec 4) (s : State) : CommandEndsIn [.ok, .fail] (execHashFinal i s) := by
  refine commandEndsIn_next.mpr (State.endsIn_gated (by simp) fun s => ?_)
  split
  · split <;> simp
  · simp

theorem execHashSize_endsIn (alg : BitVec 4) (s : State) : CommandEndsIn [.ok] (execHashSize alg s) := by
  simp [execHashSize]

theorem execHashBlockSize_endsIn (alg : BitVec 4) (s : State) : CommandEndsIn [.ok] (execHashBlockSize alg s) := by
  simp [execHashBlockSize]

theorem execHmacInit_endsIn (alg i : BitVec 4) (path : BitVec 2) (s : State) :
    CommandEndsIn [.ok, .fail] (execHmacInit alg i path s) :=
  commandEndsIn_next.mpr (s.initContext_endsIn alg i path _)

theorem execHmacUpdate_endsIn (i : BitVec 4) (s : State) : CommandEndsIn [.ok, .fail] (execHmacUpdate i s) := by
  refine commandEndsIn_next.mpr (State.endsIn_gated (by simp) fun s => ?_)
  split
  · split <;> simp
  · simp

theorem execHmacFinal_endsIn (i : BitVec 4) (s : State) : CommandEndsIn [.ok, .fail] (execHmacFinal i s) := by
  refine commandEndsIn_next.mpr ?_
  split
  · split
    · split <;> simp
    · simp
  · simp

theorem execHkdf_endsIn (alg : BitVec 4) (len : BitVec 16) (s : State) :
    CommandEndsIn [.ok, .fail] (execHkdf alg len s) := by
  refine commandEndsIn_next.mpr (State.endsIn_gated (by simp) fun s => ?_)
  split <;> simp

/-! TRNG (R197, R198) -/

theorem execTrngStartup_endsIn (s : State) : CommandEndsIn [.ok, .fail] (execTrngStartup s) := by
  refine commandEndsIn_next.mpr ?_
  split <;> simp

theorem execTrngWord_endsIn (s : State) : CommandEndsIn [.ok, .fail] (execTrngWord s) := by
  refine commandEndsIn_next.mpr (State.endsIn_gated (by simp) fun s => ?_)
  split <;> simp

/-! DRBG (R213 to R222) -/

/-- The codes with which the generator refuses (R216). -/
theorem Drbg.refuses_eq_some {d : Drbg} {sentinel : Word} {n : Nat} {code : Result}
    (h : d.refuses sentinel n = some code) : code = .fail ∨ code = .reseedNeeded := by
  unfold Drbg.refuses at h
  split at h
  · exact .inl (Option.some.inj h).symm
  · split at h
    · exact .inl (Option.some.inj h).symm
    · split at h
      · exact .inr (Option.some.inj h).symm
      · simp at h

/-- A generate call answers one of three codes, and bytes only with `OK` (R216). -/
theorem State.drbgGenerate_answer (s : State) (i : BitVec 4) (n : Nat) (addl : Bytes) :
    (s.drbgGenerate i n addl).1 ∈ [Result.ok, .fail, .reseedNeeded] ∧
      ((s.drbgGenerate i n addl).1 ≠ .ok → (s.drbgGenerate i n addl).2.1 = []) := by
  rcases s.drbgGenerate_cases i n addl with
    ⟨code, hc, h⟩ | ⟨-, -, h⟩ | ⟨-, -, s1, -, h⟩ | ⟨-, -, e, s1, -, h⟩ <;> rw [h]
  · rcases Drbg.refuses_eq_some hc with rfl | rfl <;> simp
  all_goals simp

/-- The loop of `RAND_BYTES` answers as its generate calls do (R222). -/
theorem State.randLoop_answer (fuel rest : Nat) (out : Bytes) (s : State) :
    (State.randLoop fuel rest out s).1 ∈ [Result.ok, .fail, .reseedNeeded] ∧
      ((State.randLoop fuel rest out s).1 ≠ .ok → (State.randLoop fuel rest out s).2.1 = []) := by
  induction fuel generalizing rest out s with
  | zero => simp [State.randLoop]
  | succ fuel ih =>
    unfold State.randLoop
    split
    · simp
    · have hg := s.drbgGenerate_answer 0 (min Config.drbgMaxOut rest) []
      split
      · exact ih _ _ _
      · next code part s1 _ h1 =>
        rw [h1] at hg
        exact ⟨hg.1, fun _ => rfl⟩

theorem execDrbgInit_endsIn (i : BitVec 4) (s : State) : CommandEndsIn [.ok, .fail] (execDrbgInit i s) := by
  refine commandEndsIn_next.mpr (State.endsIn_gated (by simp) fun s => ?_)
  split <;> simp

theorem execDrbgReseed_endsIn (i : BitVec 4) (s : State) : CommandEndsIn [.ok, .fail] (execDrbgReseed i s) := by
  refine commandEndsIn_next.mpr (State.endsIn_gated (by simp) fun s => ?_)
  split <;> simp

theorem execDrbgGenerate_endsIn (i : BitVec 4) (outLen : BitVec 16) (s : State) :
    CommandEndsIn [.ok, .fail, .reseedNeeded] (execDrbgGenerate i outLen s) := by
  refine commandEndsIn_next.mpr (State.endsIn_gated (by simp) fun s => ?_)
  split
  · obtain ⟨hcode, hout⟩ := s.drbgGenerate_answer i outLen.toNat s.in0
    exact State.endsIn_ret.mpr ⟨hcode, fun hne => ⟨hout hne, rfl⟩⟩
  · simp

theorem execDrbgExit_endsIn (i : BitVec 4) (s : State) : CommandEndsIn [.ok, .fail] (execDrbgExit i s) := by
  refine commandEndsIn_next.mpr ?_
  split <;> simp

theorem execDrbgInitRfc6979_endsIn (i : BitVec 4) (s : State) :
    CommandEndsIn [.ok, .fail] (execDrbgInitRfc6979 i s) := by
  refine commandEndsIn_next.mpr (State.endsIn_gated (by simp) fun s => ?_)
  split <;> simp

theorem execRandBytes_endsIn (n : BitVec 16) (s : State) :
    CommandEndsIn [.ok, .fail, .reseedNeeded] (execRandBytes n s) := by
  refine commandEndsIn_next.mpr (State.endsIn_gated (by simp) fun s => ?_)
  split
  · simp
  · split
    · simp
    · next s1 _ =>
      obtain ⟨hcode, hout⟩ := State.randLoop_answer n.toNat n.toNat [] s1
      exact State.endsIn_ret.mpr ⟨hcode, fun hne => ⟨hout hne, rfl⟩⟩

/-! AES (R325 to R331) -/

theorem execAesEcbEnc_endsIn (keysize : BitVec 4) (s : State) :
    CommandEndsIn [.ok, .fail] (execAesEcbEnc keysize s) := by
  refine commandEndsIn_next.mpr (State.endsIn_aesCommand (by simp) fun s => ?_)
  split <;> simp

theorem execAesEcbDec_endsIn (keysize : BitVec 4) (s : State) :
    CommandEndsIn [.ok, .fail] (execAesEcbDec keysize s) := by
  refine commandEndsIn_next.mpr (State.endsIn_aesCommand (by simp) fun s => ?_)
  split <;> simp

theorem execAesCtr_endsIn (keysize : BitVec 4) (s : State) : CommandEndsIn [.ok, .fail] (execAesCtr keysize s) := by
  refine commandEndsIn_next.mpr (State.endsIn_aesCommand (by simp) fun s => ?_)
  split <;> simp

theorem execAesCbcEnc_endsIn (keysize : BitVec 4) (s : State) :
    CommandEndsIn [.ok, .fail] (execAesCbcEnc keysize s) := by
  refine commandEndsIn_next.mpr (State.endsIn_aesCommand (by simp) fun s => ?_)
  split <;> simp

theorem execAesCbcDec_endsIn (keysize : BitVec 4) (s : State) :
    CommandEndsIn [.ok, .fail] (execAesCbcDec keysize s) := by
  refine commandEndsIn_next.mpr (State.endsIn_aesCommand (by simp) fun s => ?_)
  split <;> simp

theorem execAesCmac_endsIn (keysize : BitVec 4) (s : State) : CommandEndsIn [.ok, .fail] (execAesCmac keysize s) :=
  commandEndsIn_next.mpr (State.endsIn_aesCommand (by simp) fun s => by simp)

/-! RSA (R282, R284, R296 to R299) -/

theorem execModexpBlinded_endsIn (s : State) : CommandEndsIn [.ok, .fail] (execModexpBlinded s) := by
  refine commandEndsIn_next.mpr (State.endsIn_rsaCommand (by simp) fun s => ?_)
  simp only
  split
  · simp
  · split
    · simp
    · split <;> simp

theorem execModexpPub_endsIn (s : State) : CommandEndsIn [.ok, .fail] (execModexpPub s) := by
  refine commandEndsIn_next.mpr (State.endsIn_rsaCommand (by simp) fun s => ?_)
  simp only
  split
  · simp
  · split <;> simp

theorem execRsaEncrypt_endsIn (padding hash : BitVec 4) (s : State) :
    CommandEndsIn [.ok, .fail] (execRsaEncrypt padding hash s) := by
  refine commandEndsIn_next.mpr (State.endsIn_rsaCommand (by simp) fun s => ?_)
  simp only
  split
  · split
    · simp
    · split <;> simp
  · simp

theorem execRsaDecrypt_endsIn (padding hash : BitVec 4) (s : State) :
    CommandEndsIn [.ok, .fail] (execRsaDecrypt padding hash s) := by
  refine commandEndsIn_next.mpr (State.endsIn_rsaCommand (by simp) fun s => ?_)
  simp only
  split
  · split
    · simp
    · split
      · simp
      · split <;> simp
  · simp

theorem execRsaSign_endsIn (padding hash : BitVec 4) (s : State) :
    CommandEndsIn [.ok, .fail] (execRsaSign padding hash s) := by
  refine commandEndsIn_next.mpr (State.endsIn_rsaCommand (by simp) fun s => ?_)
  simp only
  split
  · split
    · simp
    · split
      · simp
      · split
        · simp
        · split <;> simp
  · simp

theorem execRsaVerify_endsIn (padding hash : BitVec 4) (s : State) :
    CommandEndsIn [.ok, .fail] (execRsaVerify padding hash s) := by
  refine commandEndsIn_next.mpr (State.endsIn_rsaCommand (by simp) fun s => ?_)
  split
  · simp
  · exact State.endsIn_verdict (by simp) (by simp) s _

/-! P256 (R250 to R255) -/

theorem execP256KeyFromBytes_endsIn (s : State) : CommandEndsIn [.ok, .fail, .retry] (execP256KeyFromBytes s) := by
  refine commandEndsIn_next.mpr (State.endsIn_p256Command (by simp) fun s => ?_)
  split
  · simp
  · split
    · simp
    · simp only [State.blindMul_eq]
      split <;> simp

theorem execP256BaseMul_endsIn (s : State) : CommandEndsIn [.ok, .fail] (execP256BaseMul s) := by
  refine commandEndsIn_next.mpr (State.endsIn_p256Command (by simp) fun s => ?_)
  split <;> simp

theorem execP256PointMul_endsIn (s : State) : CommandEndsIn [.ok, .fail] (execP256PointMul s) := by
  refine commandEndsIn_next.mpr (State.endsIn_p256Command (by simp) fun s => ?_)
  split
  · simp
  · simp only
    split <;> simp

theorem execEcdsaSignRaw_endsIn (s : State) : CommandEndsIn [.ok, .fail, .retry] (execEcdsaSignRaw s) := by
  refine commandEndsIn_next.mpr (State.endsIn_p256Command (by simp) fun s => ?_)
  split
  · simp
  · split <;> simp

theorem execEcdsaSign_endsIn (i : BitVec 4) (s : State) :
    CommandEndsIn [.ok, .fail, .reseedNeeded] (execEcdsaSign i s) := by
  refine commandEndsIn_next.mpr (State.endsIn_p256Command (by simp) fun s => ?_)
  split
  · simp
  · obtain ⟨u, -, h | h | ⟨rs, h⟩⟩ := State.signTries_cases i (be s.in1) (be s.in2) s.cfg.p256MaxTries s <;>
      rw [h] <;> simp

theorem execEcdsaVerify_endsIn (s : State) : CommandEndsIn [.ok, .fail] (execEcdsaVerify s) := by
  refine commandEndsIn_next.mpr (State.endsIn_p256Command (by simp) fun s => ?_)
  split
  · simp
  · exact State.endsIn_verdict (by simp) (by simp) s _

/-! FIPS (R360, R364 to R368) -/

theorem execFipsPowerOn_endsIn (s : State) : CommandEndsIn [.ok, .fail] (execFipsPowerOn s) := by
  refine commandEndsIn_next.mpr ?_
  split
  · simp
  · split
    · simp
    · split
      · simp
      · simp only
        split <;> split <;> simp

theorem execFipsStatus_endsIn (s : State) : CommandEndsIn [.ok] (execFipsStatus s) := by simp [execFipsStatus]

theorem execFipsAllowed_endsIn (s : State) : CommandEndsIn [.ok, .fail] (execFipsAllowed s) :=
  commandEndsIn_next.mpr (State.endsIn_verdict (by simp) (by simp) s _)

theorem execFipsThrowErr_endsIn (mask : BitVec 16) (s : State) :
    CommandEndsIn [.ok, .fail] (execFipsThrowErr mask s) := by
  refine commandEndsIn_next.mpr ?_
  split <;> simp

theorem execFipsKat_endsIn (kat : BitVec 4) (s : State) : CommandEndsIn [.ok, .fail] (execFipsKat kat s) := by
  refine commandEndsIn_next.mpr ?_
  split
  · simp
  · split
    · simp
    · exact State.endsIn_verdict (by simp) (by simp) _ _

theorem execFipsInject_endsIn (mask : BitVec 16) (s : State) : CommandEndsIn [.ok] (execFipsInject mask s) := by
  simp [execFipsInject]

/-! All commands -/

/-- Every command ends with a kind of its own row, and with output only where the kind is `OK` (R31, R390). -/
theorem exec_endsIn (i : Instr) (s : State) : CommandEndsIn i.resultKinds (exec i s) :=
  match i with
  | .equals arg => execEquals_endsIn arg s
  | .hwstat => execHwstat_endsIn s
  | .hashInit alg slot path => execHashInit_endsIn alg slot path s
  | .hashUpdate slot => execHashUpdate_endsIn slot s
  | .hashFinal slot => execHashFinal_endsIn slot s
  | .hashSize alg => execHashSize_endsIn alg s
  | .hashBlockSize alg => execHashBlockSize_endsIn alg s
  | .hmacInit alg slot path => execHmacInit_endsIn alg slot path s
  | .hmacUpdate slot => execHmacUpdate_endsIn slot s
  | .hmacFinal slot => execHmacFinal_endsIn slot s
  | .hkdf alg arg => execHkdf_endsIn alg arg s
  | .trngStartup => execTrngStartup_endsIn s
  | .trngWord => execTrngWord_endsIn s
  | .drbgInit slot => execDrbgInit_endsIn slot s
  | .drbgReseed slot => execDrbgReseed_endsIn slot s
  | .drbgGenerate slot arg => execDrbgGenerate_endsIn slot arg s
  | .drbgExit slot => execDrbgExit_endsIn slot s
  | .drbgInitRfc6979 slot => execDrbgInitRfc6979_endsIn slot s
  | .randBytes arg => execRandBytes_endsIn arg s
  | .aesEcbEnc alg => execAesEcbEnc_endsIn alg s
  | .aesEcbDec alg => execAesEcbDec_endsIn alg s
  | .aesCtr alg => execAesCtr_endsIn alg s
  | .aesCbcEnc alg => execAesCbcEnc_endsIn alg s
  | .aesCbcDec alg => execAesCbcDec_endsIn alg s
  | .aesCmac alg => execAesCmac_endsIn alg s
  | .modexpBlinded => execModexpBlinded_endsIn s
  | .modexpPub => execModexpPub_endsIn s
  | .rsaEncrypt alg slot => execRsaEncrypt_endsIn alg slot s
  | .rsaDecrypt alg slot => execRsaDecrypt_endsIn alg slot s
  | .rsaSign alg slot => execRsaSign_endsIn alg slot s
  | .rsaVerify alg slot => execRsaVerify_endsIn alg slot s
  | .p256KeyFromBytes => execP256KeyFromBytes_endsIn s
  | .p256BaseMul => execP256BaseMul_endsIn s
  | .p256PointMul => execP256PointMul_endsIn s
  | .ecdsaSignRaw => execEcdsaSignRaw_endsIn s
  | .ecdsaSign slot => execEcdsaSign_endsIn slot s
  | .ecdsaVerify => execEcdsaVerify_endsIn s
  | .fipsPowerOn => execFipsPowerOn_endsIn s
  | .fipsStatus => execFipsStatus_endsIn s
  | .fipsAllowed => execFipsAllowed_endsIn s
  | .fipsThrowErr arg => execFipsThrowErr_endsIn arg s
  | .fipsKat alg => execFipsKat_endsIn alg s
  | .fipsInject arg => execFipsInject_endsIn arg s

theorem Instr.retry_mem_resultKinds {i : Instr} (h : .retry ∈ i.resultKinds) :
    i = .p256KeyFromBytes ∨ i = .ecdsaSignRaw := by
  cases i with
  | p256KeyFromBytes => exact .inl rfl
  | ecdsaSignRaw => exact .inr rfl
  | _ =>
    unfold Instr.resultKinds at h
    simp at h

theorem Instr.reseedNeeded_mem_resultKinds {i : Instr} (h : .reseedNeeded ∈ i.resultKinds) :
    (∃ g n, i = .drbgGenerate g n) ∨ (∃ n, i = .randBytes n) ∨ ∃ g, i = .ecdsaSign g := by
  cases i with
  | drbgGenerate g n => exact .inl ⟨g, n, rfl⟩
  | randBytes n => exact .inr (.inl ⟨n, rfl⟩)
  | ecdsaSign g => exact .inr (.inr ⟨g, rfl⟩)
  | _ =>
    unfold Instr.resultKinds at h
    simp at h

theorem Result.code_toNat_lt (r : Result) : r.code.toNat < 4 := by
  cases r <;> decide

/-- Settles O18: `exec_endsIn` with the rows of `Instr.resultKinds`. -/
theorem resultKindsOfCommands : Obligations.ResultKindsOfCommands := by
  unfold Obligations.ResultKindsOfCommands
  intro i s t h
  obtain ⟨r, hr, hres, hout⟩ := exec_endsIn i s t h
  rw [hres]
  refine ⟨r.code_toNat_lt, fun hne => hout ?_, fun h2 => ?_, fun h3 => ?_, fun hi => ?_⟩
  · rintro rfl
    exact hne rfl
  · obtain rfl : r = .retry := Result.code_injective h2
    exact Instr.retry_mem_resultKinds hr
  · obtain rfl : r = .reseedNeeded := Result.code_injective h3
    exact Instr.reseedNeeded_mem_resultKinds hr
  · rcases hi with rfl | ⟨alg, rfl⟩ | ⟨alg, rfl⟩ | rfl | ⟨mask, rfl⟩ <;>
      rw [List.mem_singleton.mp hr, Result.code_ok]

end Sys2Proof.Machine
end

section
/-! SUPPORT. The bignum functions: the squaring loop of `modexp` is the power (R281), and Euclid's loop of `inv` keeps, beside
the two remainders, coefficients that are congruent to them as multiples of the first operand (R13). -/

namespace Sys2Proof.Machine

/-! The power (R281) -/

theorem powModFuel_zero (n x fuel : Nat) : powModFuel n fuel x 0 = 1 % n := by
  cases fuel <;> simp [powModFuel]

theorem powModFuel_succ {n x k fuel : Nat} (hk : k ≠ 0) :
    powModFuel n (fuel + 1) x k =
      if k % 2 = 1 then x * powModFuel n fuel (x * x % n) (k / 2) % n else powModFuel n fuel (x * x % n) (k / 2) := by
  simp [powModFuel, hk]

/-- A power of the square is the power of the doubled exponent, whether or not the square is reduced first. -/
theorem sq_mod_pow_mod (x j n : Nat) : (x * x % n) ^ j % n = x ^ (2 * j) % n := by
  rw [← Nat.pow_mod, ← sq, ← pow_mul]

/-- Squaring computes the power on every fuel that is at least the exponent. -/
theorem powModFuel_eq (n fuel : Nat) : ∀ x k : Nat, k ≤ fuel → powModFuel n fuel x k = x ^ k % n := by
  induction fuel with
  | zero =>
    intro x k hk
    rw [Nat.le_zero.mp hk, powModFuel_zero, pow_zero]
  | succ fuel ih =>
    intro x k hk
    by_cases h0 : k = 0
    · rw [h0, powModFuel_zero, pow_zero]
    have half : powModFuel n fuel (x * x % n) (k / 2) = x ^ (2 * (k / 2)) % n := by
      rw [ih _ _ (by omega), sq_mod_pow_mod]
    rw [powModFuel_succ h0, half]
    split
    · next hodd =>
      rw [Nat.mul_mod_mod, ← pow_succ']
      congr 2
      omega
    · next heven =>
      congr 2
      omega

/-- The exponentiation is the power (R281). -/
theorem modexp_eq (x k n : Nat) : modexp x k n = x ^ k % n := powModFuel_eq n k x k le_rfl

/-! The inverse (R13) -/

/-- The invariant of Euclid's loop: both coefficients are residues, and times `a` they are the remainders modulo `m`. -/
structure EuclidInv (a m r0 r1 t0 t1 : Nat) : Prop where
  lt0 : t0 < m
  lt1 : t1 < m
  cast0 : (a * t0 : ZMod m) = r0
  cast1 : (a * t1 : ZMod m) = r1

theorem EuclidInv.start {m : Nat} (a : Nat) (hm : 1 < m) : EuclidInv a m m (a % m) 0 1 where
  lt0 := by omega
  lt1 := hm
  cast0 := by simp
  cast1 := by simp

/-- The next coefficient is `t0 - q * t1` in the residues modulo `m`. -/
theorem cast_euclid_coefficient {m : Nat} (hm : 0 < m) (t0 q t1 : Nat) :
    (((t0 + (m - q * t1 % m)) % m : Nat) : ZMod m) = t0 - q * t1 := by
  have hle : q * t1 % m ≤ m := (Nat.mod_lt _ hm).le
  rw [ZMod.natCast_mod, Nat.cast_add, Nat.cast_sub hle, ZMod.natCast_self, ZMod.natCast_mod, Nat.cast_mul]
  ring

theorem EuclidInv.next {a m r0 r1 t0 t1 : Nat} (h : EuclidInv a m r0 r1 t0 t1) :
    EuclidInv a m r1 (r0 % r1) t1 ((t0 + (m - r0 / r1 * t1 % m)) % m) where
  lt0 := h.lt1
  lt1 := Nat.mod_lt _ (Nat.zero_lt_of_lt h.lt0)
  cast0 := h.cast1
  cast1 := by
    have hdiv : ((r0 % r1 : Nat) : ZMod m) = r0 - (r0 / r1 : Nat) * r1 := by
      rw [eq_sub_iff_add_eq, ← Nat.cast_mul, ← Nat.cast_add, Nat.mod_add_div']
    calc (a * ((t0 + (m - r0 / r1 * t1 % m)) % m : Nat) : ZMod m)
        = a * t0 - (r0 / r1 : Nat) * (a * t1) := by
          rw [cast_euclid_coefficient (Nat.zero_lt_of_lt h.lt0)]; ring
      _ = (r0 % r1 : Nat) := by rw [h.cast0, h.cast1, hdiv]

/-- Euclid's loop ends with the coefficient of the greatest common divisor. -/
theorem euclidFuel_spec {a m : Nat} (fuel : Nat) : ∀ {r0 r1 t0 t1 : Nat}, r1 < fuel → EuclidInv a m r0 r1 t0 t1 →
    (euclidFuel m fuel r0 r1 t0 t1).1 < m ∧
      (a * (euclidFuel m fuel r0 r1 t0 t1).1 : ZMod m) = Nat.gcd r0 r1 := by
  induction fuel with
  | zero => exact fun hlt => absurd hlt (Nat.not_lt_zero _)
  | succ fuel ih =>
    intro r0 r1 t0 t1 hlt h
    unfold euclidFuel
    split
    · next h0 =>
      rw [h0, Nat.gcd_zero_right]
      exact ⟨h.lt0, h.cast0⟩
    · next h0 =>
      have hr : r0 % r1 < r1 := Nat.mod_lt _ (Nat.pos_of_ne_zero h0)
      rw [Nat.gcd_comm r0 r1, Nat.gcd_rec r1 r0, Nat.gcd_comm (r0 % r1) r1]
      exact ih (by omega) h.next

theorem invMod_lt {m : Nat} (a : Nat) (hm : 1 < m) : invMod a m < m :=
  (euclidFuel_spec _ (Nat.lt_succ_self _) (EuclidInv.start a hm)).1

/-- For every `a`, `inv` times `a` is the greatest common divisor modulo `m`. -/
theorem mul_invMod_cast {m : Nat} (a : Nat) (hm : 1 < m) : (a * invMod a m : ZMod m) = Nat.gcd a m := by
  have h := (euclidFuel_spec _ (Nat.lt_succ_self _) (EuclidInv.start a hm)).2
  rwa [Nat.gcd_comm m, ← Nat.gcd_rec m a, Nat.gcd_comm m a] at h

/-- Where `a` has an inverse modulo `m`, `inv` is one (R13). -/
theorem mul_invMod_mod {a m : Nat} (hm : 1 < m) (hg : Nat.gcd a m = 1) : a * invMod a m % m = 1 := by
  have h := mul_invMod_cast a hm
  rw [hg] at h
  have hmod : a * invMod a m % m = 1 % m := (ZMod.natCast_eq_natCast_iff' _ _ m).mp (by exact_mod_cast h)
  rwa [Nat.mod_eq_of_lt hm] at hmod

/-! The statement -/

/-- Settles O44: the squaring loop is the power by induction on its fuel, and Euclid's loop keeps `EuclidInv`. -/
theorem bignumFunctionsRight : Obligations.BignumFunctionsRight := by
  unfold Obligations.BignumFunctionsRight
  exact ⟨fun x k n _ => modexp_eq x k n, fun a m hm hg => ⟨invMod_lt a hm, mul_invMod_mod hm hg⟩⟩

end Sys2Proof.Machine
end


section
/-! SUPPORT. How long the outputs of the commands are (R31, R81): bounds from the parameters, the contexts and the inputs. -/

namespace Sys2Proof.Machine

/-! Words, points and hashes -/

@[simp] theorem wordBytes_length (w : Word) : (wordBytes w).length = 4 := by simp [wordBytes]

theorem Point.bytes_length_le (q : Point) : q.bytes.length ≤ 64 := by cases q <;> simp [Point.bytes]

@[simp] theorem signatureBytes_length (rs : Nat × Nat) : (signatureBytes rs).length = 64 := by simp [signatureBytes]

theorem HashAlg.digestBytes_le_max (a : HashAlg) : a.digestBytes ≤ 64 := by cases a <;> decide

theorem digestOf_length_le (a : HashAlg) (h : HashWords) : (digestOf a h).length ≤ a.digestBytes := by simp [digestOf]

theorem HashCtx.finishDigest_length_le (c : HashCtx) : c.finishDigest.length ≤ 937 := by
  have := digestOf_length_le c.alg c.finishWords
  have := c.alg.digestBytes_le_max
  simp only [HashCtx.finishDigest]
  omega

@[simp] theorem HashCtx.finishTag_length (c : HashCtx) (okey : Bytes) : (c.finishTag okey).length = c.alg.digestBytes := by
  simp [HashCtx.finishTag]

theorem HashCtx.finishTag_length_le (c : HashCtx) (okey : Bytes) : (c.finishTag okey).length ≤ 937 := by
  have := c.alg.digestBytes_le_max
  rw [HashCtx.finishTag_length]
  omega

/-- The digest in the storage of a context (R40). -/
theorem HashCtx.WellFormed.digest_length_le {c : HashCtx} (h : c.WellFormed) : c.digest.length ≤ 64 := by
  obtain ⟨-, -, hact, hfin⟩ := h
  cases hp : c.phase with
  | active => simp [(hact hp).2]
  | finalized =>
    rw [(hfin hp).2]
    exact c.alg.digestBytes_le_max

theorem CtxSlot.WellFormed.context {slot : CtxSlot} (h : slot.WellFormed) {c : HashCtx} (hc : slot.context = some c) :
    c.WellFormed := by
  cases slot with
  | none => simp [CtxSlot.context] at hc
  | hash c' =>
    obtain rfl := Option.some.inj hc
    exact h
  | hmac c' okey =>
    obtain rfl := Option.some.inj hc
    exact h.1

/-- A key block is one block (R170). -/
@[simp] theorem hmacKeyBlock_length (a : HashAlg) (key : Bytes) : (hmacKeyBlock a key).length = a.blockBytes := by
  have := a.digestBytes_le
  unfold hmacKeyBlock
  split <;> simp <;> omega

theorem hkdf_length_le (salt ikm info : Bytes) (len : Nat) : (hkdf salt ikm info len).length ≤ len := by
  simp only [hkdf, List.length_take]
  omega

/-! AES (R323 to R331) -/

/-- The last round adds a round key, so that no output is longer than a block. -/
theorem encryptRounds_length_le (rks : List Bytes) (st : Bytes) (hr : ∀ rk ∈ rks, rk.length = 16) (hne : rks ≠ []) :
    (encryptRounds rks st).length ≤ 16 := by
  induction rks generalizing st with
  | nil => exact absurd rfl hne
  | cons rk rks ih =>
    cases rks with
    | nil => simp [encryptRounds, hr rk (by simp)]
    | cons rk2 rks => exact ih _ (fun x hx => hr x (List.mem_cons_of_mem _ hx)) (by simp)

theorem decryptRounds_length_le (rks : List Bytes) (st : Bytes) (hr : ∀ rk ∈ rks, rk.length = 16) (hne : rks ≠ []) :
    (decryptRounds rks st).length ≤ 16 := by
  induction rks generalizing st with
  | nil => exact absurd rfl hne
  | cons rk rks ih =>
    cases rks with
    | nil => simp [decryptRounds, hr rk (by simp)]
    | cons rk2 rks => exact ih _ (fun x hx => hr x (List.mem_cons_of_mem _ hx)) (by simp)

section Key

variable {key : Bytes} (hk : key.length = 16 ∨ key.length = 24 ∨ key.length = 32)

include hk

theorem aesE_length_le (block : Bytes) : (aesE key block).length ≤ 16 := by
  obtain ⟨hlen, hrk⟩ := roundKeys_spec hk
  refine encryptRounds_length_le _ _ (fun rk h => hrk rk (List.mem_of_mem_drop h)) fun h => ?_
  have := congrArg List.length h
  simp only [List.length_drop, hlen, List.length_nil] at this
  omega

theorem aesD_length_le (block : Bytes) : (aesD key block).length ≤ 16 := by
  obtain ⟨hlen, hrk⟩ := roundKeys_spec hk
  refine decryptRounds_length_le _ _ (fun rk h => hrk rk (List.mem_reverse.mp (List.mem_of_mem_drop h))) fun h => ?_
  have := congrArg List.length h
  simp only [List.length_drop, List.length_reverse, hlen, List.length_nil] at this
  omega

theorem cbcEncBlocks_length_le (bs : List Bytes) (prev : Bytes) (hp : prev.length ≤ 16) :
    (cbcEncBlocks key prev bs).1.length ≤ 16 * bs.length ∧ (cbcEncBlocks key prev bs).2.length ≤ 16 := by
  induction bs generalizing prev with
  | nil => exact ⟨Nat.le_refl 0, hp⟩
  | cons b bs ih =>
    have hc := aesE_length_le hk (xorBytes b prev)
    obtain ⟨h1, h2⟩ := ih _ hc
    refine ⟨?_, h2⟩
    simp only [cbcEncBlocks, List.length_append, List.length_cons]
    omega

theorem cbcDecBlocks_length_le (bs : List Bytes) (prev : Bytes) (hp : prev.length ≤ 16) (hb : ∀ b ∈ bs, b.length = 16) :
    (cbcDecBlocks key prev bs).1.length ≤ 16 * bs.length ∧ (cbcDecBlocks key prev bs).2.length ≤ 16 := by
  induction bs generalizing prev with
  | nil => exact ⟨Nat.le_refl 0, hp⟩
  | cons b bs ih =>
    have hd := aesD_length_le hk b
    obtain ⟨h1, h2⟩ := ih b (hb b (by simp)).le fun x hx => hb x (List.mem_cons_of_mem _ hx)
    refine ⟨?_, h2⟩
    simp only [cbcDecBlocks, List.length_append, List.length_cons, xorBytes_length]
    omega

/-- Encrypting whole blocks answers no more bytes than it was given (R328). -/
theorem aesCbcEnc_length_le {iv data : Bytes} (hiv : iv.length = 16) (hd : data.length % 16 = 0) :
    (aesCbcEnc key iv data).1.length ≤ data.length ∧ (aesCbcEnc key iv data).2.length ≤ 16 := by
  have hc := (chunks_whole 16 (by decide) (data.length / 16) data (by omega)).1
  obtain ⟨h1, h2⟩ := cbcEncBlocks_length_le hk (chunks 16 data) iv hiv.le
  exact ⟨h1.trans (by omega), h2⟩

/-- The same for decrypting (R329). -/
theorem aesCbcDec_length_le {iv data : Bytes} (hiv : iv.length = 16) (hd : data.length % 16 = 0) :
    (aesCbcDec key iv data).1.length ≤ data.length ∧ (aesCbcDec key iv data).2.length ≤ 16 := by
  obtain ⟨hc, hb⟩ := chunks_whole 16 (by decide) (data.length / 16) data (by omega)
  obtain ⟨h1, h2⟩ := cbcDecBlocks_length_le hk (chunks 16 data) iv hiv.le hb
  exact ⟨h1.trans (by omega), h2⟩

end Key

theorem ctrBlocks_length_le (key : Bytes) (bs : List Bytes) (c : Nat) :
    (ctrBlocks key c bs).length ≤ bs.flatten.length := by
  induction bs generalizing c with
  | nil => exact Nat.le_refl 0
  | cons b bs ih =>
    have := ih (c + 1)
    simp only [ctrBlocks, List.length_append, xorBytes_length, List.flatten_cons]
    omega

/-- Counter mode answers no more bytes than it was given (R327). -/
theorem aesCtr_length_le (key iv data : Bytes) : (aesCtr key iv data).length ≤ data.length := by
  have h := ctrBlocks_length_le key (chunks 16 data) (be iv)
  rwa [chunks_flatten 16 (by decide)] at h

/-! RSA: a message is no longer than the block it is unpadded from (R289, R291, R294) -/

theorem splitAtZero_length_le {s m : Bytes} {i : Nat} (h : splitAtZero s = some (i, m)) : m.length ≤ s.length := by
  induction s generalizing i with
  | nil => simp [splitAtZero] at h
  | cons b bs ih =>
    unfold splitAtZero at h
    split at h
    · obtain ⟨-, rfl⟩ := Prod.mk.injEq .. ▸ Option.some.inj h
      simp
    · obtain ⟨⟨j, m'⟩, hs, he⟩ := Option.map_eq_some_iff.mp h
      obtain ⟨-, rfl⟩ := Prod.mk.injEq .. ▸ he
      exact (ih hs).trans (by simp)

theorem emePkcs1Decode_length_le {em m : Bytes} (h : emePkcs1Decode em = some m) : m.length ≤ em.length := by
  unfold emePkcs1Decode at h
  split at h
  · next b0 b1 rest =>
    split at h
    · split at h
      · simp at h
      · next j m' hs =>
        split at h
        · simp at h
        · obtain rfl := Option.some.inj h
          exact (splitAtZero_length_le hs).trans (Nat.le_add_right _ 2)
    · simp at h
  · simp at h

theorem afterOneMarker_length_le {s m : Bytes} (h : afterOneMarker s = some m) : m.length ≤ s.length := by
  induction s with
  | nil => simp [afterOneMarker] at h
  | cons b bs ih =>
    unfold afterOneMarker at h
    split at h
    · exact (ih h).trans (by simp)
    · split at h
      · obtain rfl := Option.some.inj h
        simp
      · simp at h

theorem oaepDecode_length_le {a : HashAlg} {label em m : Bytes} (h : oaepDecode a label em = some m) :
    m.length ≤ em.length := by
  unfold oaepDecode at h
  simp only at h
  split at h
  · simp at h
  · split at h
    · have := afterOneMarker_length_le h
      simp only [List.length_drop, xorBytes_length] at this
      omega
    · simp at h

theorem unpadCipher_length_le {pad : Padding} {label em m : Bytes} (h : unpadCipher pad label em = some m) :
    m.length ≤ em.length := by
  cases pad with
  | null => exact (congrArg List.length (Option.some.inj h)).ge
  | pkcs1 => exact emePkcs1Decode_length_le h
  | oaep a => exact oaepDecode_length_le h
  | pkcs1Hash a => simp [unpadCipher] at h
  | pss a => simp [unpadCipher] at h

/-! The DRBG (R216, R222) -/

theorem State.drbgGenerate_length_le (s : State) (i : BitVec 4) (n : Nat) (addl : Bytes) :
    (s.drbgGenerate i n addl).2.1.length ≤ min n 937 := by
  rcases s.drbgGenerate_cases i n addl with
    ⟨code, -, h⟩ | ⟨hr, -, h⟩ | ⟨-, -, s1, -, h⟩ | ⟨hr, -, e, s1, -, h⟩ <;> rw [h]
  · simp
  · have := (Drbg.refuses_eq_none.mp hr).2.1
    simp only [(Drbg.produce_spec _ n addl).1]
    omega
  · simp
  · have := (Drbg.refuses_eq_none.mp hr).2.1
    simp only [(Drbg.produce_spec _ n []).1]
    omega

/-- The loop of `RAND_BYTES` adds at most what is still to come (R222). -/
theorem State.randLoop_length_le (fuel rest : Nat) (out : Bytes) (s : State) :
    (State.randLoop fuel rest out s).2.1.length ≤ out.length + rest := by
  induction fuel generalizing rest out s with
  | zero => simp [State.randLoop]
  | succ fuel ih =>
    unfold State.randLoop
    split
    · simp
    · have hg := s.drbgGenerate_length_le 0 (min Config.drbgMaxOut rest) []
      split
      · next part s1 h1 =>
        rw [h1] at hg
        simp only at hg
        have := ih (rest - min Config.drbgMaxOut rest) (out ++ part) s1
        simp only [List.length_append] at this
        omega
      · simp

end Sys2Proof.Machine
end
section
/-! SUPPORT. The elementary changes that commands are made of. Every command is a run of them (`exec_runs`), so that an invariant
or a frame of all 43 commands is one check for each kind of change and not one for each command. -/

namespace Sys2Proof.Machine

/-! What a slot can become -/

/-- A context that an init command puts into a slot, on the path `p` (R150, R172). -/
inductive CtxSlot.Fresh (p : HashPath) : CtxSlot → Prop where
  | hash (a : HashAlg) : CtxSlot.Fresh p (.hash (.fresh a p))
  | hmac (a : HashAlg) (key : Bytes) : CtxSlot.Fresh p (hmacFresh key a p)

/-- A change of a live context that leaves its phase and its path: input absorbed (R151, R173) or the key block cleared
(R174). -/
inductive CtxSlot.Updates : CtxSlot → CtxSlot → Prop where
  | hash {c : HashCtx} {data : Bytes} (h : c.canAbsorb data = true) : CtxSlot.Updates (.hash c) (.hash (c.absorb data))
  | hmac {c : HashCtx} {data : Bytes} (okey : Bytes) (h : c.canAbsorb data = true) :
      CtxSlot.Updates (.hmac c okey) (.hmac (c.absorb data) okey)
  | clearKey (c : HashCtx) (okey : Bytes) : CtxSlot.Updates (.hmac c okey) (.hmac c (zeros c.alg.blockBytes))

/-- `FINAL` on an active context of the path `p` (R152, R174). -/
inductive CtxSlot.Finishes : HashPath → CtxSlot → CtxSlot → Prop where
  | hash {c : HashCtx} (h : c.phase = .active) : CtxSlot.Finishes c.path (.hash c) (.hash (c.finalize c.finishDigest))
  | hmac {c : HashCtx} (okey : Bytes) (h : c.phase = .active) :
      CtxSlot.Finishes c.path (.hmac c okey) (.hmac (c.finalize (c.finishTag okey)) (zeros c.alg.blockBytes))

/-! What an output may be -/

/-- The input ports are within `MAX_BUF` (R31, R81). -/
def State.InputsFit (s : State) : Prop :=
  s.in0.length ≤ s.cfg.maxBuf ∧ s.in1.length ≤ s.cfg.maxBuf ∧ s.in2.length ≤ s.cfg.maxBuf ∧ s.in3.length ≤ s.cfg.maxBuf

/-- The outputs `a` and `b` are within `MAX_BUF`, if parameters, contexts and inputs are as they should be (R31, R81). -/
def State.AnswerFits (s : State) (a b : Bytes) : Prop :=
  s.cfg.Lawful → s.ContextsWellFormed → s.InputsFit → a.length ≤ s.cfg.maxBuf ∧ b.length ≤ s.cfg.maxBuf

/-! The changes -/

/-- One elementary change of the state by the command `i`, with what is known where it happens. -/
inductive Op (i : Instr) : State → State → Prop where
  /-- The end of a command (R31). -/
  | ret {s : State} (r : Result) {a b : Bytes} (hfit : s.AnswerFits a b) : Op i s (s.ret r a b)
  /-- Draws (R15). -/
  | draws {s t : State} (hi : i.makesDraws = true) (h : s.SameButDraws t) : Op i s t
  /-- The startup test of the noise source (R197). -/
  | startup {s : State} (hi : i.asksNoise = true) : Op i s s.trngStartup.2
  /-- A word of the noise source (R198). -/
  | word {s : State} (hi : i.asksNoise = true) : Op i s s.trngWord.2
  /-- A fatal error of the command's own that is none of the noise source (R393, R394). -/
  | raise {s : State} (bits : Word) (hi : bits &&& i.mayRaise = bits) (he : bits &&& errorMask ≠ 0)
      (ht : bits &&& 0x6 = 0) : Op i s (s.raiseFatal bits)
  /-- A recorded error, with the latch that follows the TRNG bits (R44, R366). -/
  | throw {s : State} (mask : BitVec 16) (hi : i = .fipsThrowErr mask) (hm : mask ≠ 0) :
      Op i s ((s.latchTrng (mask.setWidth 32)).raiseFatal (mask.setWidth 32))
  /-- Injection bits (R368). -/
  | inject {s : State} (mask : BitVec 16) (hi : i = .fipsInject mask) :
      Op i s { s with fipsInject := s.fipsInject ||| mask }
  /-- The opening of the gate (R360). -/
  | openGate {s : State} (hi : i = .fipsPowerOn) (he : s.hasError = false) (hh : s.trng.healthy = true) : Op i s s.openGate
  /-- A fresh context in slot `j`, with the choice of its path (R150, R172). -/
  | init {s : State} {j : BitVec 4} (hi : i.ctxSlot = some j) (hj : j.toNat < s.cfg.nCtx) {sel : PathSel} {p : HashPath}
      {owner : Option (BitVec 4)} (hp : s.grabPath j sel = some (p, owner)) {c : CtxSlot} (hc : c.Fresh p) :
      Op i s ({ s with shaHwOwner := owner }.setCtx j c)
  /-- A change of the live context in slot `j`. -/
  | update {s : State} {j : BitVec 4} (hi : i.ctxSlot = some j) {c : CtxSlot} (hc : (s.ctxAt j).Updates c) :
      Op i s (s.setCtx j c)
  /-- The end of the live context in slot `j`. -/
  | finish {s : State} {j : BitVec 4} (hi : i.ctxSlot = some j) {p : HashPath} {c : CtxSlot}
      (hc : (s.ctxAt j).Finishes p c) : Op i s ((s.setCtx j c).releaseAfter p)
  /-- A fresh DRBG generator; slot 0 is the singleton (R213, R219, R222). -/
  | instantiate {s : State} {g : BitVec 4} (hi : i.drbgSlot = some g) (hg : g.toNat < s.cfg.nDrbg ∨ g = 0) (seed : Bytes)
      (threshold : Word) : Op i s (s.setDrbg g (Drbg.instantiate seed threshold))
  /-- A reseed of a live generator (R214, R216). -/
  | reseed {s : State} {g : BitVec 4} (hi : i.drbgSlot = some g) (hv : (s.drbgAt g).cookie = .valid) (seed : Bytes) :
      Op i s (s.setDrbg g ((s.drbgAt g).reseed seed))
  /-- Output of a live generator, whose counter is not the sentinel or is fresh from a reseed (R216). -/
  | produce {s : State} {g : BitVec 4} (hi : i.drbgSlot = some g) (hv : (s.drbgAt g).cookie = .valid)
      (hc : (s.drbgAt g).reseedCounter ≠ s.cfg.noAutoReseed ∨ (s.drbgAt g).reseedCounter = 1) (n : Nat) (addl : Bytes) :
      Op i s (s.setDrbg g ((s.drbgAt g).produce n addl).2)
  /-- The end of an generator (R218). -/
  | erase {s : State} {g : BitVec 4} (hi : i.drbgSlot = some g) : Op i s (s.setDrbg g Drbg.erased)

/-- A run of elementary changes of the command `i`, parts of it with the engine lock taken (R84). -/
inductive Runs (i : Instr) : State → State → Prop where
  | refl (s : State) : Runs i s s
  | op {s t : State} (h : Op i s t) : Runs i s t
  | trans {s t u : State} (h : Runs i s t) (h' : Runs i t u) : Runs i s u
  | locked {s t : State} (h : Runs i { s with engineBusy := true } t) : Runs i s { t with engineBusy := false }

/-- A command is a run of its elementary changes. -/
def CommandRuns (i : Instr) (s : State) : Prop := ∀ t, exec i s = .next t → Runs i s t

theorem CommandRuns.of_next {i : Instr} {s t : State} (he : exec i s = .next t) (h : Runs i s t) : CommandRuns i s := by
  intro u hu
  cases he.symm.trans hu
  exact h

/-- The induction over runs: what every change keeps, and the engine lock does not touch, every run keeps. -/
theorem Runs.keeps {i : Instr} {P : State → Prop} (hop : ∀ {s t}, Op i s t → P s → P t)
    (hlock : ∀ {s} (b : Bool), P s → P { s with engineBusy := b }) {s t : State} (h : Runs i s t) (hs : P s) : P t := by
  induction h with
  | refl => exact hs
  | op h => exact hop h hs
  | trans _ _ ih ih' => exact ih' (ih hs)
  | locked _ ih => exact hlock false (ih (hlock true hs))

/-! Outputs that fit -/

theorem State.answerFits_nil (s : State) : s.AnswerFits [] [] := fun _ _ _ => ⟨Nat.zero_le _, Nat.zero_le _⟩

/-- `MAX_BUF` is at least 937 (R10). -/
theorem State.answerFits_of_le {s : State} {a b : Bytes} (ha : a.length ≤ 937) (hb : b.length ≤ 937) :
    s.AnswerFits a b := by
  intro hl _ _
  obtain ⟨-, -, -, -, hmax, -⟩ := hl
  omega

/-- An output no longer than `IN2`. -/
theorem State.answerFits_of_in2 {s : State} {a b : Bytes} (ha : a.length ≤ s.in2.length) (hb : b.length ≤ 937) :
    s.AnswerFits a b := by
  intro hl _ hin
  obtain ⟨-, -, -, -, hmax, -⟩ := hl
  obtain ⟨-, -, h2, -⟩ := hin
  omega

/-- The stored digest of a context (R152, R174). -/
theorem State.answerFits_of_ctx {s : State} {j : BitVec 4} {c : HashCtx} (hj : (s.ctxAt j).context = some c) :
    s.AnswerFits c.digest [] := by
  intro hl hctx _
  obtain ⟨-, -, -, -, hmax, -⟩ := hl
  have := (CtxSlot.WellFormed.context (hctx j).1 hj).digest_length_le
  exact ⟨by omega, Nat.zero_le _⟩

/-- The parameters, contexts and inputs decide. -/
theorem State.answerFits_congr {s t : State} {a b : Bytes} (hcfg : t.cfg = s.cfg) (hctx : t.ctx = s.ctx)
    (h0 : t.in0 = s.in0) (h1 : t.in1 = s.in1) (h2 : t.in2 = s.in2) (h3 : t.in3 = s.in3) (h : s.AnswerFits a b) :
    t.AnswerFits a b := by
  simpa only [State.AnswerFits, State.ContextsWellFormed, State.InputsFit, State.ctxAt, hcfg, hctx, h0, h1, h2, h3] using h

theorem State.SameButDraws.answerFits {s t : State} {a b : Bytes} (hst : s.SameButDraws t) (h : s.AnswerFits a b) :
    t.AnswerFits a b := by
  unfold State.SameButDraws at hst
  exact State.answerFits_congr (by rw [hst]) (by rw [hst]) (by rw [hst]) (by rw [hst]) (by rw [hst]) (by rw [hst]) h

/-! The ends and the frames of the commands -/

section Frames

variable {i : Instr} {s : State} {body : State → State}

theorem Runs.ret (r : Result) {a b : Bytes} (h : s.AnswerFits a b) : Runs i s (s.ret r a b) := .op (.ret r h)

/-- An end with no output (R31). -/
theorem Runs.noOutput (r : Result) : Runs i s (s.ret r [] []) := .ret r s.answerFits_nil

theorem Runs.fail : Runs i s s.fail := .noOutput .fail

theorem Runs.done : Runs i s s.done := .noOutput .ok

/-- Draws and then an output no longer than `IN2` (R282 to R298). -/
theorem Runs.answerAfterDraws {t : State} {a : Bytes} (hi : i.makesDraws = true) (h : s.SameButDraws t)
    (ha : a.length ≤ s.in2.length) : Runs i s (t.answer a) :=
  (Runs.op (.draws hi h)).trans (.ret .ok (h.answerFits (State.answerFits_of_in2 ha (Nat.zero_le _))))

theorem Runs.verdict (good : Bool) : Runs i s (s.verdict good) := by
  rw [State.verdict_eq]
  exact .noOutput _

theorem Runs.gated (h : s.cryptoAllowed = true → Runs i s (body s)) : Runs i s (s.gated body) := by
  rcases s.gated_cases body with ⟨ho, he⟩ | ⟨-, he⟩ <;> rw [he]
  · exact h ho
  · exact .fail

theorem Runs.rsaCommand (h : ∀ u, Runs i u (body u)) : Runs i s (s.rsaCommand body) := .locked (.gated fun _ => h _)

theorem Runs.p256Command (h : ∀ u, Runs i u (body u)) : Runs i s (s.p256Command body) := .locked (.gated fun _ => h _)

/-- The body of an AES command has a key of one of the three lengths (R320). -/
theorem Runs.aesCommand {keysize : BitVec 4}
    (h : ∀ u : State, u.in0.length = 16 ∨ u.in0.length = 24 ∨ u.in0.length = 32 → Runs i u (body u)) :
    Runs i s (s.aesCommand keysize body) := by
  refine .locked (.gated fun _ => ?_)
  split
  · next hk =>
    obtain ⟨hle, hlen⟩ := aesKeyLen_eq_some.mp hk
    exact h _ (by omega)
  · exact .fail

end Frames

end Sys2Proof.Machine
end

section
/-! SUPPORT. Every command is a run of its elementary changes: the shared operations first, then the 43 commands. -/

namespace Sys2Proof.Machine

/-! The noise source (R197 to R199) and the masks (R244) -/

theorem State.SameButNoise.drbgAt {s t : State} (h : s.SameButNoise t) (g : BitVec 4) : t.drbgAt g = s.drbgAt g := by
  unfold State.SameButNoise at h
  rw [h]
  rfl

theorem State.trngBytes_drbgAt {s t : State} {n : Nat} {b : Option Bytes} (h : s.trngBytes n = (b, t)) (g : BitVec 4) :
    t.drbgAt g = s.drbgAt g := by
  have hf := State.trngBytes_frame s n
  rw [h] at hf
  exact hf.drbgAt g

theorem State.blindMul_frame (s : State) (k : Nat) (q : Point) : s.SameButDraws (s.blindMul k q).2 := rfl

theorem State.signRawBlinded_frame (s : State) (k d e : Nat) : s.SameButDraws (s.signRawBlinded k d e).2 := rfl

section Noise

variable {i : Instr} (hi : i.asksNoise = true)

include hi

theorem State.trngWordBytes_runs (n : Nat) (s : State) : Runs i s (State.trngWordBytes n s).2 := by
  induction n generalizing s with
  | zero => exact .refl s
  | succ n ih =>
    have hw : Runs i s s.trngWord.2 := .op (.word hi)
    simp only [State.trngWordBytes]
    split
    · next s1 h1 => rwa [h1] at hw
    · next w s1 h1 =>
      rw [h1] at hw
      have hr := hw.trans (ih s1)
      split
      · next s2 h2 => rwa [h2] at hr
      · next rest s2 h2 => rwa [h2] at hr

theorem State.trngBytes_runs {s t : State} {n : Nat} {b : Option Bytes} (h : s.trngBytes n = (b, t)) : Runs i s t := by
  have hr := State.trngWordBytes_runs hi ((n + 3) / 4) s
  unfold State.trngBytes at h
  split at h <;> next h1 =>
    rw [h1] at hr
    obtain ⟨-, rfl⟩ := Prod.mk.injEq .. ▸ h
    exact hr

/-! The generator (R216, R222) -/

theorem State.drbgGenerate_runs {g : BitVec 4} (hg : i.drbgSlot = some g) (s : State) (n : Nat) (addl : Bytes) :
    Runs i s (s.drbgGenerate g n addl).2.2 := by
  rcases s.drbgGenerate_cases g n addl with
    ⟨code, -, h⟩ | ⟨hr, -, h⟩ | ⟨-, -, s1, ht, h⟩ | ⟨hr, -, e, s1, ht, h⟩ <;> rw [h]
  · exact .refl s
  · obtain ⟨hv, -, hc⟩ := Drbg.refuses_eq_none.mp hr
    exact .op (.produce hg hv (.inl hc) n addl)
  · exact State.trngBytes_runs hi ht
  · obtain ⟨hv, -, -⟩ := Drbg.refuses_eq_none.mp hr
    have hd : s1.drbgAt g = s.drbgAt g := State.trngBytes_drbgAt ht g
    have h1 : Runs i s1 (s1.setDrbg g ((s.drbgAt g).reseed e)) := hd ▸ .op (.reseed hg (hd ▸ hv) e)
    have h2 : Op i (s1.setDrbg g ((s.drbgAt g).reseed e)) _ :=
      .produce hg (by simp [hv]) (.inr (by simp)) n []
    rw [State.drbgAt_setDrbg_self, State.setDrbg_setDrbg] at h2
    exact (State.trngBytes_runs hi ht).trans (h1.trans (.op h2))

theorem State.ensureSingleton_runs (hg : i.drbgSlot = some 0) (s : State) : Runs i s s.ensureSingleton.2 := by
  unfold State.ensureSingleton
  split
  · exact .refl s
  · split
    · next s1 h1 => exact State.trngBytes_runs hi h1
    · next e s1 h1 =>
      split
      · next s2 h2 => exact (State.trngBytes_runs hi h1).trans (State.trngBytes_runs hi h2)
      · next m s2 h2 =>
        exact ((State.trngBytes_runs hi h1).trans (State.trngBytes_runs hi h2)).trans
          (.op (.instantiate hg (.inr rfl) _ _))

theorem State.randLoop_runs (hg : i.drbgSlot = some 0) (fuel rest : Nat) (out : Bytes) (s : State) :
    Runs i s (State.randLoop fuel rest out s).2.2 := by
  induction fuel generalizing rest out s with
  | zero => exact .refl s
  | succ fuel ih =>
    unfold State.randLoop
    split
    · exact .refl s
    · have h := State.drbgGenerate_runs hi hg s (min Config.drbgMaxOut rest) []
      split
      · next part s1 h1 => rw [h1] at h; exact h.trans (ih _ _ s1)
      · next code x s1 hx h1 => rw [h1] at h; exact h

/-- The tries of `ECDSA_SIGN` (R254). -/
theorem State.signTries_runs (hd : i.makesDraws = true) {g : BitVec 4} (hg : i.drbgSlot = some g) (d e n : Nat)
    (s : State) : Runs i s (State.signTries g d e n s) := by
  induction n generalizing s with
  | zero => exact .fail
  | succ n ih =>
    have h := State.drbgGenerate_runs hi hg s 32 []
    unfold State.signTries
    split
    · next bytes s1 h1 =>
      rw [h1] at h
      split
      · exact h.trans (ih s1)
      · have hs : Runs i s1 (s1.signRawBlinded (be bytes + 1) d e).2 := .op (.draws hd (State.signRawBlinded_frame ..))
        have hr := h.trans hs
        split
        · next s2 h2 => rw [h2] at hr; exact hr.trans (ih s2)
        · next rs s2 h2 =>
          rw [h2] at hr
          exact hr.trans (.ret .ok (State.answerFits_of_le (by simp) (by simp)))
    · next code x s1 hx h1 =>
      rw [h1] at h
      exact h.trans (.noOutput code)

end Noise

/-- A startup that passes ends with a healthy source (R197). -/
theorem State.trngStartup_healthy {s t : State} (h : s.trngStartup = (true, t)) : t.trng.healthy = true := by
  unfold State.trngStartup at h
  split at h
  · simp at h
  · simp only at h
    split at h
    · simp at h
    · obtain ⟨-, rfl⟩ := Prod.mk.injEq .. ▸ h
      rfl

/-! Known-answer tests (R360, R362) -/

theorem KatId.errorBit_and_errorMask (id : KatId) : id.errorBit &&& errorMask ≠ 0 := by cases id <;> decide

theorem KatId.errorBit_and_trng (id : KatId) : id.errorBit &&& 0x6 = 0 := by cases id <;> decide

theorem State.katStep_runs {i : Instr} (s : State) {id : KatId} (hi : id.errorBit &&& i.mayRaise = id.errorBit) :
    Runs i s (s.katStep id) := by
  have hrun : ∀ u : State, Runs i u (if u.katGood id then u else u.raiseFatal id.errorBit) := by
    intro u
    split
    · exact .refl u
    · exact .op (.raise _ hi id.errorBit_and_errorMask id.errorBit_and_trng)
  unfold State.katStep
  simp only
  split
  · exact .locked (hrun _)
  · exact hrun s

theorem kats_run {i : Instr} (hi : ∀ id : KatId, id.errorBit &&& i.mayRaise = id.errorBit) (ids : List KatId) (s : State) :
    Runs i s (ids.foldl State.katStep s) := by
  induction ids generalizing s with
  | nil => exact .refl s
  | cons id ids ih => exact (s.katStep_runs (hi id)).trans (ih _)

end Sys2Proof.Machine
end

section
/-! SUPPORT. The 43 commands as runs of elementary changes (R390), unit by unit. -/

namespace Sys2Proof.Machine

/-! SYS (R350, R351) -/

theorem equals_runs (len : BitVec 16) (s : State) : CommandRuns (.equals len) s := .of_next rfl (.verdict _)

theorem hwstat_runs (s : State) : CommandRuns .hwstat s :=
  .of_next rfl (.ret .ok (State.answerFits_of_le (by simp) (by simp)))

/-! HASH and HMAC (R150 to R154, R172 to R176) -/

theorem State.initContext_runs {i : Instr} {j : BitVec 4} (hi : i.ctxSlot = some j) (s : State) (alg : BitVec 4)
    (path : BitVec 2) {make : HashAlg → HashPath → CtxSlot} (hmake : ∀ a p, (make a p).Fresh p) :
    Runs i s (s.initContext alg j path make) := by
  rcases s.initContext_cases alg j path make with h | ⟨sel, a, p, owner, -, -, -, hj, hp, h⟩ <;> rw [h]
  · exact .fail
  · exact (Runs.op (.init hi hj hp (hmake a p))).trans (.noOutput .ok)

theorem hashInit_runs (alg j : BitVec 4) (path : BitVec 2) (s : State) : CommandRuns (.hashInit alg j path) s :=
  .of_next rfl (s.initContext_runs rfl alg path fun a _ => .hash a)

theorem hashUpdate_runs (j : BitVec 4) (s : State) : CommandRuns (.hashUpdate j) s := by
  refine .of_next rfl (.gated fun _ => ?_)
  split
  · next c _ hc =>
    split
    · next hab => exact (Runs.op (.update rfl (hc ▸ .hash hab))).trans .done
    · exact .fail
  · exact .fail

theorem hashFinal_runs (j : BitVec 4) (s : State) : CommandRuns (.hashFinal j) s := by
  refine .of_next rfl (.gated fun _ => ?_)
  split
  · next c _ hc =>
    split
    · next hp =>
      exact (Runs.op (.finish rfl (hc ▸ .hash hp))).trans
        (.ret .ok (State.answerFits_of_le c.finishDigest_length_le (by simp)))
    · exact .ret .ok (State.answerFits_of_ctx (congrArg CtxSlot.context hc))
  · exact .fail

theorem hashSize_runs (alg : BitVec 4) (s : State) : CommandRuns (.hashSize alg) s :=
  .of_next rfl (.ret .ok (State.answerFits_of_le (by simp) (by simp)))

theorem hashBlockSize_runs (alg : BitVec 4) (s : State) : CommandRuns (.hashBlockSize alg) s :=
  .of_next rfl (.ret .ok (State.answerFits_of_le (by simp) (by simp)))

theorem hmacInit_runs (alg j : BitVec 4) (path : BitVec 2) (s : State) : CommandRuns (.hmacInit alg j path) s :=
  .of_next rfl (s.initContext_runs rfl alg path fun a _ => .hmac a s.in0)

theorem hmacUpdate_runs (j : BitVec 4) (s : State) : CommandRuns (.hmacUpdate j) s := by
  refine .of_next rfl (.gated fun _ => ?_)
  split
  · next c okey _ hc =>
    split
    · next hab => exact (Runs.op (.update rfl (hc ▸ .hmac okey hab))).trans .done
    · exact .fail
  · exact .fail

theorem State.clearKey_runs {i : Instr} {j : BitVec 4} (hi : i.ctxSlot = some j) (s : State) :
    Runs i s (s.clearKey j) := by
  unfold State.clearKey
  split
  · next c okey _ hc => exact .op (.update hi (hc ▸ .clearKey c okey))
  · exact .refl s

theorem hmacFinal_runs (j : BitVec 4) (s : State) : CommandRuns (.hmacFinal j) s := by
  refine .of_next rfl ?_
  split
  · split
    · next c okey _ hc =>
      split
      · next hp =>
        exact (Runs.op (.finish rfl (hc ▸ .hmac okey hp))).trans
          (.ret .ok (State.answerFits_of_le (c.finishTag_length_le okey) (by simp)))
      · exact .ret .ok (State.answerFits_of_ctx (congrArg CtxSlot.context hc))
    · exact .fail
  · exact (s.clearKey_runs rfl).trans .fail

theorem hkdf_runs (alg : BitVec 4) (len : BitVec 16) (s : State) : CommandRuns (.hkdf alg len) s := by
  refine .of_next rfl (.gated fun _ => ?_)
  split
  · exact .fail
  · next h =>
    have := hkdf_length_le s.in0 s.in1 s.in2 len.toNat
    exact .ret .ok fun _ _ _ => ⟨by omega, Nat.zero_le _⟩

/-! TRNG (R197, R198) -/

theorem trngStartup_runs (s : State) : CommandRuns .trngStartup s := by
  have h : Runs .trngStartup s s.trngStartup.2 := .op (.startup rfl)
  refine .of_next rfl ?_
  split <;> next s1 h1 => rw [h1] at h; exact h.trans (.noOutput _)

theorem trngWord_runs (s : State) : CommandRuns .trngWord s := by
  have h : Runs .trngWord s s.trngWord.2 := .op (.word rfl)
  refine .of_next rfl (.gated fun _ => ?_)
  split
  · next s1 h1 => rw [h1] at h; exact h.trans .fail
  · next w s1 h1 => rw [h1] at h; exact h.trans (.ret .ok (State.answerFits_of_le (by simp) (by simp)))

/-! DRBG (R213 to R222) -/

theorem drbgInit_runs (g : BitVec 4) (s : State) : CommandRuns (.drbgInit g) s := by
  refine .of_next rfl (.gated fun _ => ?_)
  split
  · next threshold hg _ =>
    exact (Runs.op (.instantiate rfl (.inl (by simpa [State.isDrbgSlot] using hg)) _ _)).trans .done
  · exact .fail

theorem drbgReseed_runs (g : BitVec 4) (s : State) : CommandRuns (.drbgReseed g) s := by
  refine .of_next rfl (.gated fun _ => ?_)
  split
  · next h => exact (Runs.op (.reseed rfl h.2 _)).trans .done
  · exact .fail

theorem drbgGenerate_runs (g : BitVec 4) (n : BitVec 16) (s : State) : CommandRuns (.drbgGenerate g n) s := by
  have hr := State.drbgGenerate_runs (i := .drbgGenerate g n) rfl rfl s n.toNat s.in0
  have hlen := s.drbgGenerate_length_le g n.toNat s.in0
  refine .of_next rfl (.gated fun _ => ?_)
  split
  · exact hr.trans (.ret _ (State.answerFits_of_le (hlen.trans (Nat.min_le_right ..)) (by simp)))
  · exact .fail

theorem drbgExit_runs (g : BitVec 4) (s : State) : CommandRuns (.drbgExit g) s := by
  refine .of_next rfl ?_
  split
  · exact (Runs.op (.erase rfl)).trans .done
  · exact .fail

theorem drbgInitRfc6979_runs (g : BitVec 4) (s : State) : CommandRuns (.drbgInitRfc6979 g) s := by
  refine .of_next rfl (.gated fun _ => ?_)
  split
  · next h => exact (Runs.op (.instantiate rfl (.inl (by simpa [State.isDrbgSlot] using h.1)) _ _)).trans .done
  · exact .fail

theorem randBytes_runs (n : BitVec 16) (s : State) : CommandRuns (.randBytes n) s := by
  have he := State.ensureSingleton_runs (i := .randBytes n) rfl rfl s
  have hcfg : s.ensureSingleton.2.cfg = s.cfg := by rw [s.ensureSingleton_frame.1]
  refine .of_next rfl (.gated fun _ => ?_)
  split
  · exact .fail
  · next hn =>
    split
    · next s1 h1 => rw [h1] at he; exact he.trans .fail
    · next s1 h1 =>
      rw [h1] at he hcfg
      have hr := State.randLoop_runs (i := .randBytes n) rfl rfl n.toNat n.toNat [] s1
      have hlen := State.randLoop_length_le n.toNat n.toNat [] s1
      have hcfg' : (State.randLoop n.toNat n.toNat [] s1).2.2.cfg = s1.cfg := by rw [(State.randLoop_frame ..).1]
      refine (he.trans hr).trans (.ret _ fun _ _ _ => ⟨?_, Nat.zero_le _⟩)
      rw [hcfg', hcfg]
      exact hlen.trans (by simpa using hn)

/-! AES (R325 to R331) -/

theorem aesEcbEnc_runs (keysize : BitVec 4) (s : State) : CommandRuns (.aesEcbEnc keysize) s := by
  refine .of_next rfl (.aesCommand fun u hk => ?_)
  split
  · exact .ret .ok (State.answerFits_of_le ((aesE_length_le hk _).trans (by decide)) (by simp))
  · exact .fail

theorem aesEcbDec_runs (keysize : BitVec 4) (s : State) : CommandRuns (.aesEcbDec keysize) s := by
  refine .of_next rfl (.aesCommand fun u hk => ?_)
  split
  · exact .ret .ok (State.answerFits_of_le ((aesD_length_le hk _).trans (by decide)) (by simp))
  · exact .fail

theorem aesCtr_runs (keysize : BitVec 4) (s : State) : CommandRuns (.aesCtr keysize) s := by
  refine .of_next rfl (.aesCommand fun u hk => ?_)
  split
  · exact .ret .ok (State.answerFits_of_in2 (aesCtr_length_le ..) (by simp))
  · exact .fail

theorem aesCbcEnc_runs (keysize : BitVec 4) (s : State) : CommandRuns (.aesCbcEnc keysize) s := by
  refine .of_next rfl (.aesCommand fun u hk => ?_)
  split
  · next h =>
    obtain ⟨h0, h1⟩ := aesCbcEnc_length_le hk h.1 h.2
    exact .ret .ok (State.answerFits_of_in2 h0 (h1.trans (by decide)))
  · exact .fail

theorem aesCbcDec_runs (keysize : BitVec 4) (s : State) : CommandRuns (.aesCbcDec keysize) s := by
  refine .of_next rfl (.aesCommand fun u hk => ?_)
  split
  · next h =>
    obtain ⟨h0, h1⟩ := aesCbcDec_length_le hk h.1 h.2
    exact .ret .ok (State.answerFits_of_in2 h0 (h1.trans (by decide)))
  · exact .fail

theorem aesCmac_runs (keysize : BitVec 4) (s : State) : CommandRuns (.aesCmac keysize) s :=
  .of_next rfl (.aesCommand fun _ hk =>
    .ret .ok (State.answerFits_of_le ((aesE_length_le hk _).trans (by decide)) (by simp)))

/-! RSA (R282, R284, R296 to R299): an output is no longer than the modulus in `IN2` -/

theorem modexpBlinded_runs (s : State) : CommandRuns .modexpBlinded s := by
  refine .of_next rfl (.rsaCommand fun u => ?_)
  simp only
  split
  · exact .fail
  · next e _ =>
    split
    · exact .fail
    · have hf := u.modexpBlinded_frame (le u.in0) (le u.in1) (le u.in2) e
      split
      · next s1 h1 => rw [h1] at hf; exact (Runs.op (.draws rfl hf)).trans .fail
      · next y s1 h1 => rw [h1] at hf; exact .answerAfterDraws rfl hf (by simp)

theorem modexpPub_runs (s : State) : CommandRuns .modexpPub s := by
  refine .of_next rfl (.rsaCommand fun u => ?_)
  simp only
  split
  · exact .fail
  · split
    · exact .fail
    · exact .ret .ok (State.answerFits_of_in2 (by simp) (by simp))

theorem rsaEncrypt_runs (padding hash : BitVec 4) (s : State) : CommandRuns (.rsaEncrypt padding hash) s := by
  refine .of_next rfl (.rsaCommand fun u => ?_)
  simp only
  split
  · next pad e _ _ =>
    have hf := u.padCipher_frame pad u.in1 u.in0 u.in2.length
    split
    · next s1 h1 => rw [h1] at hf; exact (Runs.op (.draws rfl hf)).trans .fail
    · next em s1 h1 =>
      rw [h1] at hf
      split
      · exact (Runs.op (.draws rfl hf)).trans .fail
      · exact .answerAfterDraws rfl hf (by simp)
  · exact .fail

theorem rsaDecrypt_runs (padding hash : BitVec 4) (s : State) : CommandRuns (.rsaDecrypt padding hash) s := by
  refine .of_next rfl (.rsaCommand fun u => ?_)
  simp only
  split
  · next pad e _ _ =>
    split
    · exact .fail
    · have hf := u.modexpBlinded_frame (be u.in0) (be (u.in1.take u.in2.length)) (be u.in2) e
      split
      · next s1 h1 => rw [h1] at hf; exact (Runs.op (.draws rfl hf)).trans .fail
      · next m s1 h1 =>
        rw [h1] at hf
        split
        · exact (Runs.op (.draws rfl hf)).trans .fail
        · next msg hm => exact .answerAfterDraws rfl hf ((unpadCipher_length_le hm).trans (by simp))
  · exact .fail

theorem rsaSign_runs (padding hash : BitVec 4) (s : State) : CommandRuns (.rsaSign padding hash) s := by
  refine .of_next rfl (.rsaCommand fun u => ?_)
  simp only
  split
  · next pad e _ _ =>
    split
    · exact .fail
    · have hf := u.padSignature_frame pad u.in0 (be u.in2) u.in2.length
      split
      · next s1 h1 => rw [h1] at hf; exact (Runs.op (.draws rfl hf)).trans .fail
      · next em s1 h1 =>
        rw [h1] at hf
        split
        · exact (Runs.op (.draws rfl hf)).trans .fail
        · have hf2 := hf.trans (s1.modexpBlinded_frame (be em) (be u.in1) (be u.in2) e)
          split
          · next s2 h2 => rw [h2] at hf2; exact (Runs.op (.draws rfl hf2)).trans .fail
          · next sg s2 h2 => rw [h2] at hf2; exact .answerAfterDraws rfl hf2 (by simp)
  · exact .fail

theorem rsaVerify_runs (padding hash : BitVec 4) (s : State) : CommandRuns (.rsaVerify padding hash) s := by
  refine .of_next rfl (.rsaCommand fun u => ?_)
  split
  · exact .fail
  · exact .verdict _

/-! P256 (R250 to R255) -/

theorem p256KeyFromBytes_runs (s : State) : CommandRuns .p256KeyFromBytes s := by
  refine .of_next rfl (.p256Command fun u => ?_)
  split
  · exact .fail
  · split
    · exact .noOutput .retry
    · have hf := (u.blindMul_frame (be u.in0 + 1) p256G).trans
        ((u.blindMul (be u.in0 + 1) p256G).2.pairwise_frame (be u.in0 + 1) (u.blindMul (be u.in0 + 1) p256G).1)
      simp only
      split
      · next s2 h2 =>
        rw [h2] at hf
        exact ((Runs.op (.draws rfl hf)).trans (.op (.raise errEcdsa rfl (by decide) rfl))).trans .fail
      · next s2 h2 =>
        rw [h2] at hf
        exact (Runs.op (.draws rfl hf)).trans
          (.ret .ok (State.answerFits_of_le (by simp) ((Point.bytes_length_le _).trans (by decide))))

/-- A point multiplication with its mask, answered (R244, R251, R252). -/
theorem State.blindMul_runs {i : Instr} (hi : i.makesDraws = true) (s : State) (k : Nat) (q : Point) :
    Runs i s ((s.blindMul k q).2.answer (s.blindMul k q).1.bytes) :=
  (Runs.op (.draws hi (s.blindMul_frame k q))).trans
    (.ret .ok (State.answerFits_of_le ((Point.bytes_length_le _).trans (by decide)) (by simp)))

theorem p256BaseMul_runs (s : State) : CommandRuns .p256BaseMul s := by
  refine .of_next rfl (.p256Command fun u => ?_)
  split
  · exact .fail
  · exact u.blindMul_runs rfl _ _

theorem p256PointMul_runs (s : State) : CommandRuns .p256PointMul s := by
  refine .of_next rfl (.p256Command fun u => ?_)
  split
  · exact .fail
  · simp only
    split
    · exact u.blindMul_runs rfl _ _
    · exact .fail

theorem ecdsaSignRaw_runs (s : State) : CommandRuns .ecdsaSignRaw s := by
  refine .of_next rfl (.p256Command fun u => ?_)
  split
  · exact .fail
  · have hf := u.signRawBlinded_frame (be u.in0) (be u.in1) (be u.in2)
    split
    · next s1 h1 => rw [h1] at hf; exact (Runs.op (.draws rfl hf)).trans (.noOutput .retry)
    · next rs s1 h1 =>
      rw [h1] at hf
      exact (Runs.op (.draws rfl hf)).trans (.ret .ok (State.answerFits_of_le (by simp) (by simp)))

theorem ecdsaSign_runs (g : BitVec 4) (s : State) : CommandRuns (.ecdsaSign g) s := by
  refine .of_next rfl (.p256Command fun u => ?_)
  split
  · exact .fail
  · exact State.signTries_runs rfl rfl rfl _ _ _ u

theorem ecdsaVerify_runs (s : State) : CommandRuns .ecdsaVerify s := by
  refine .of_next rfl (.p256Command fun u => ?_)
  split
  · exact .fail
  · exact .verdict _

/-! FIPS (R360, R364 to R368) -/

theorem fipsPowerOn_runs (s : State) : CommandRuns .fipsPowerOn s := by
  have hs : Runs .fipsPowerOn s s.trngStartup.2 := .op (.startup rfl)
  refine .of_next rfl ?_
  split
  · exact .fail
  · split
    · exact .done
    · split
      · next s1 h1 => rw [h1] at hs; exact hs.trans .fail
      · next s1 h1 =>
        rw [h1] at hs
        have hh : s1.trng.healthy = true := State.trngStartup_healthy h1
        have hk : Runs .fipsPowerOn s1 s1.runBattery := kats_run (fun id => by cases id <;> rfl) _ s1
        have hkh : s1.runBattery.trng = s1.trng := by rw [State.runBattery, (State.kats_spec _ s1).1]
        simp only
        split
        · split
          · exact hs.trans .fail
          · next he => exact (hs.trans (.op (.openGate rfl (by simpa using he) hh))).trans .done
        · split
          · exact (hs.trans hk).trans .fail
          · next he =>
            exact ((hs.trans hk).trans (.op (.openGate rfl (by simpa using he) (hkh ▸ hh)))).trans .done

theorem fipsStatus_runs (s : State) : CommandRuns .fipsStatus s :=
  .of_next rfl (.ret .ok (State.answerFits_of_le (by simp) (by simp)))

theorem fipsAllowed_runs (s : State) : CommandRuns .fipsAllowed s := .of_next rfl (.verdict _)

theorem fipsThrowErr_runs (mask : BitVec 16) (s : State) : CommandRuns (.fipsThrowErr mask) s := by
  refine .of_next rfl ?_
  split
  · exact .fail
  · next hm => exact (Runs.op (.throw mask rfl hm)).trans .done

/-- The bit of a known-answer test is one that its selector may raise (R362, R393). -/
theorem KatId.errorBit_and_mayRaise {kat : BitVec 4} {id : KatId} (h : katOfSel kat = some id) :
    id.errorBit &&& (Instr.fipsKat kat).mayRaise = id.errorBit := by
  revert kat
  cases id <;> decide

theorem fipsKat_runs (kat : BitVec 4) (s : State) : CommandRuns (.fipsKat kat) s := by
  refine .of_next rfl ?_
  split
  · exact .fail
  · next id hk =>
    split
    · exact .fail
    · exact (s.katStep_runs (KatId.errorBit_and_mayRaise hk)).trans (.verdict _)

theorem fipsInject_runs (mask : BitVec 16) (s : State) : CommandRuns (.fipsInject mask) s :=
  .of_next rfl ((Runs.op (.inject mask rfl)).trans .done)

/-! All commands -/

/-- Every command is a run of its elementary changes. -/
theorem exec_runs (i : Instr) (s : State) : CommandRuns i s :=
  match i with
  | .equals len => equals_runs len s
  | .hwstat => hwstat_runs s
  | .hashInit alg slot path => hashInit_runs alg slot path s
  | .hashUpdate slot => hashUpdate_runs slot s
  | .hashFinal slot => hashFinal_runs slot s
  | .hashSize alg => hashSize_runs alg s
  | .hashBlockSize alg => hashBlockSize_runs alg s
  | .hmacInit alg slot path => hmacInit_runs alg slot path s
  | .hmacUpdate slot => hmacUpdate_runs slot s
  | .hmacFinal slot => hmacFinal_runs slot s
  | .hkdf alg len => hkdf_runs alg len s
  | .trngStartup => trngStartup_runs s
  | .trngWord => trngWord_runs s
  | .drbgInit slot => drbgInit_runs slot s
  | .drbgReseed slot => drbgReseed_runs slot s
  | .drbgGenerate slot n => drbgGenerate_runs slot n s
  | .drbgExit slot => drbgExit_runs slot s
  | .drbgInitRfc6979 slot => drbgInitRfc6979_runs slot s
  | .randBytes n => randBytes_runs n s
  | .aesEcbEnc keysize => aesEcbEnc_runs keysize s
  | .aesEcbDec keysize => aesEcbDec_runs keysize s
  | .aesCtr keysize => aesCtr_runs keysize s
  | .aesCbcEnc keysize => aesCbcEnc_runs keysize s
  | .aesCbcDec keysize => aesCbcDec_runs keysize s
  | .aesCmac keysize => aesCmac_runs keysize s
  | .modexpBlinded => modexpBlinded_runs s
  | .modexpPub => modexpPub_runs s
  | .rsaEncrypt padding hash => rsaEncrypt_runs padding hash s
  | .rsaDecrypt padding hash => rsaDecrypt_runs padding hash s
  | .rsaSign padding hash => rsaSign_runs padding hash s
  | .rsaVerify padding hash => rsaVerify_runs padding hash s
  | .p256KeyFromBytes => p256KeyFromBytes_runs s
  | .p256BaseMul => p256BaseMul_runs s
  | .p256PointMul => p256PointMul_runs s
  | .ecdsaSignRaw => ecdsaSignRaw_runs s
  | .ecdsaSign slot => ecdsaSign_runs slot s
  | .ecdsaVerify => ecdsaVerify_runs s
  | .fipsPowerOn => fipsPowerOn_runs s
  | .fipsStatus => fipsStatus_runs s
  | .fipsAllowed => fipsAllowed_runs s
  | .fipsThrowErr mask => fipsThrowErr_runs mask s
  | .fipsKat kat => fipsKat_runs kat s
  | .fipsInject mask => fipsInject_runs mask s

end Sys2Proof.Machine
end

section
/-! SUPPORT. From the elementary changes to the step: what every change, the host's write and the reset events keep, every step
keeps (R83, R90, R421). With it the invariants of the two slot files and of the ports. -/

namespace Sys2Proof.Machine

/-! The step -/

/-- A property is kept by each part of a step: the elementary changes, the engine lock, the host's write of `CMD` and the input
ports, and a reset event with either value of the persisted flag. -/
structure KeptByParts (P : State → Prop) : Prop where
  op {i : Instr} {s t : State} (h : Op i s t) (hs : P s) : P t
  lock {s : State} (b : Bool) (hs : P s) : P { s with engineBusy := b }
  schedule {s : State} (rest : List Event) (hs : P s) : P (s.withSchedule rest)
  issue {s : State} {w : Word} {a b c d : Bytes} (hfit : portsFit s.cfg.maxBuf a b c d = true) (hs : P s) :
    P (s.issue w a b c d)
  reset {s : State} (persist : Bool) (hs : P s) : P { s.resetCommon with pwrupDonePersist := persist }

/-- A command keeps what its parts keep. -/
theorem KeptByParts.exec {P : State → Prop} (hP : KeptByParts P) {i : Instr} {s t : State} (h : exec i s = .next t)
    (hs : P s) : P t :=
  (exec_runs i s t h).keeps (fun ho => hP.op ho) (fun b => hP.lock b) hs

/-- An illegal word is an end without output (R116). -/
theorem KeptByParts.execute {P : State → Prop} (hP : KeptByParts P) {s t : State} (h : s.execute = .next t) (hs : P s) :
    P t := by
  rcases s.execute_cases with ⟨i, -, he⟩ | ⟨e, -, he⟩ <;> rw [he] at h
  · exact hP.exec h hs
  · cases h
    exact hP.op (i := .hwstat) (.ret .fail s.answerFits_nil) hs

/-- A step keeps what its parts keep. -/
theorem KeptByParts.step {P : State → Prop} (hP : KeptByParts P) {s t : State} (hs : P s) (h : step s = .next t) :
    P t := by
  rcases step_cases s with
    ⟨-, he⟩ | ⟨rest, -, he⟩ | ⟨rest, -, he⟩ | ⟨w, a, b, c, d, rest, -, ⟨-, he⟩ | ⟨hfit, he⟩⟩ <;> rw [he] at h
  · cases h
    exact hs
  · cases h
    exact hP.reset false (hP.schedule rest hs)
  · cases h
    exact hP.reset s.pwrupDonePersist (hP.schedule rest hs)
  · cases h
  · exact hP.execute h (hP.issue hfit (hP.schedule rest hs))

/-! The reset events (R48) -/

theorem State.resetCommon_ctxAt (s : State) (j : BitVec 4) : s.resetCommon.ctxAt j = .none := by
  simp [State.ctxAt, State.resetCommon]

theorem drbgAfterReset_getElem (n : Nat) (g : BitVec 4) :
    (drbgAfterReset n)[g.toNat]'g.isLt = Drbg.afterReset n g.toNat := by
  simp [drbgAfterReset]

/-- What a reset event leaves of the state, with either value of the persisted flag (R48). -/
theorem State.resetCommon_afterReset (s : State) (persist : Bool) :
    { s.resetCommon with pwrupDonePersist := persist }.AfterReset :=
  ⟨rfl, rfl, rfl, rfl, s.resetCommon_ctxAt,
    fun g => congrArg Drbg.cookie (drbgAfterReset_getElem s.env.resetCount g), rfl, rfl, rfl⟩

theorem State.AfterReset.contexts {s : State} (h : s.AfterReset) : s.ContextsWellFormed := by
  obtain ⟨-, -, -, -, hctx, -⟩ := h
  intro j
  rw [hctx j]
  exact ⟨trivial, fun _ => rfl⟩

theorem State.AfterReset.hardwareOwner {s : State} (h : s.AfterReset) : s.HardwareOwnerRight := by
  obtain ⟨-, -, howner, -, hctx, -⟩ := h
  intro j
  rw [hctx j, howner]
  simp [CtxSlot.holdsHardware, CtxSlot.context]

theorem State.AfterReset.gate {s : State} (h : s.AfterReset) : s.GateWellFormed := by
  obtain ⟨hstatus, -⟩ := h
  have herr : s.hasError = false := by rw [State.hasError, hstatus]; rfl
  have hopen : s.cryptoAllowed = false := by rw [State.cryptoAllowed, State.testsDone, hstatus]; rfl
  refine ⟨by rw [hstatus]; rfl, by rw [hstatus]; rfl, fun _ => herr, fun ho => ?_⟩
  rw [hopen] at ho
  cases ho

theorem State.AfterReset.trng {s : State} (h : s.AfterReset) : s.TrngWellFormed := by
  obtain ⟨hstatus, -, -, -, -, -, htrng, -⟩ := h
  unfold State.TrngWellFormed
  rw [hstatus, htrng]
  simp [Trng.runCounter]

theorem Drbg.afterReset_lengths (n slot : Nat) :
    (Drbg.afterReset n slot).k.length = 32 ∧ (Drbg.afterReset n slot).v.length = 32 := by
  simp [Drbg.afterReset]

theorem State.drbgsWellFormed_of_drbg_eq {s : State} {n : Nat} (h : s.drbg = drbgAfterReset n) : s.DrbgsWellFormed := by
  intro g
  have hg : s.drbgAt g = Drbg.afterReset n g.toNat := by
    simp only [State.drbgAt, h]
    exact drbgAfterReset_getElem n g
  obtain ⟨hk, hv⟩ := Drbg.afterReset_lengths n g.toNat
  rw [hg]
  exact ⟨hk, hv, fun hc => (by cases hc), fun _ => rfl⟩

/-! The frames of the changes -/

/-- A property that the state with another TRNG record, other status bits and other noise to come still has. -/
theorem State.SameButNoise.keeps {P : State → Prop} {s t : State} (h : s.SameButNoise t)
    (hs : P { s with
      trng := t.trng, fipsStatus := t.fipsStatus, pwrupDonePersist := t.pwrupDonePersist,
      env := { s.env with noise := t.env.noise, noiseCount := t.env.noiseCount } }) : P t := by
  unfold State.SameButNoise at h
  rwa [h]

/-- A property that the state with other draws to come still has. -/
theorem State.SameButDraws.keeps {P : State → Prop} {s t : State} (h : s.SameButDraws t)
    (hs : P { s with env := { s.env with draws := t.env.draws, drawCount := t.env.drawCount } }) : P t := by
  unfold State.SameButDraws at h
  rwa [h]

/-- A property that the state has with the hash hardware held or given back. -/
theorem State.releaseAfter_keeps {P : State → Prop} {s : State} {p : HashPath} (hs : P s)
    (hfree : P { s with shaHwOwner := none }) : P (s.releaseAfter p) := by
  unfold State.releaseAfter
  split
  · exact hfree
  · exact hs

/-! The context file (R40, R41, R155, R175) -/

/-- What an update compresses and what it keeps back (R151). -/
theorem HashCtx.absorb_spec (c : HashCtx) (data : Bytes) :
    ∃ blocks : List Bytes, c.buf ++ data = blocks.flatten ++ (c.absorb data).buf ∧
      (∀ b ∈ blocks, b.length = c.alg.blockBytes) ∧ (c.absorb data).buf.length < c.alg.blockBytes ∧
      (c.absorb data).h = blocks.foldl compress c.h :=
  absorbBlocks_spec c.alg.blockBytes c.alg.blockBytes_pos _ c.h _ le_rfl

theorem HashCtx.absorb_wellFormed {c : HashCtx} {data : Bytes} (h : c.WellFormed) (hab : c.canAbsorb data = true) :
    (c.absorb data).WellFormed := by
  obtain ⟨hactive, hcount⟩ := (HashCtx.canAbsorb_iff c data).mp hab
  obtain ⟨hwords, -, hact, -⟩ := h
  obtain ⟨hbuf, hdigest⟩ := hact hactive
  obtain ⟨blocks, hsplit, hblocks, hrest, -⟩ := c.absorb_spec data
  have hlen := congrArg List.length hsplit
  simp only [List.length_append, flatten_length_const hblocks] at hlen
  have hmod : (c.absorb data).buf.length = (c.count + data.length) % c.alg.blockBytes := by
    rw [← Nat.mod_eq_of_lt hrest]
    calc (c.absorb data).buf.length % c.alg.blockBytes
        = (c.alg.blockBytes * blocks.length + (c.absorb data).buf.length) % c.alg.blockBytes := by
          rw [Nat.mul_add_mod]
      _ = (c.count % c.alg.blockBytes + data.length) % c.alg.blockBytes := by rw [← hbuf, hlen]
      _ = (c.count + data.length) % c.alg.blockBytes := Nat.mod_add_mod ..
  refine ⟨?_, hcount, fun _ => ⟨hmod, hdigest⟩, fun hfin => ?_⟩
  · exact (absorbBlocks_hasWords ..).trans hwords
  · rw [HashCtx.absorb_phase, hactive] at hfin
    cases hfin

theorem HashCtx.finishWords_hasWords {c : HashCtx} (h : c.WellFormed) : c.alg.hasWords c.finishWords = true :=
  (foldl_compress_hasWords ..).trans h.1

theorem HashCtx.finalize_wellFormed {c : HashCtx} {d : Bytes} (h : c.WellFormed) (hd : d.length = c.alg.digestBytes) :
    (c.finalize d).WellFormed := by
  refine ⟨HashCtx.finishWords_hasWords h, h.2.1, fun hact => ?_, fun _ => ⟨rfl, hd⟩⟩
  cases hact

theorem CtxSlot.Fresh.wellFormed {p : HashPath} {c : CtxSlot} (h : c.Fresh p) : c.WellFormed := by
  cases h with
  | hash a =>
    exact ⟨a.iv_hasWords, Nat.two_pow_pos 61, fun _ => ⟨(Nat.zero_mod _).symm, rfl⟩, fun hf => by cases hf⟩
  | hmac a key =>
    refine ⟨⟨?_, ?_, fun _ => ⟨(Nat.mod_self _).symm, rfl⟩, fun hf => by cases hf⟩, hmacKeyBlock_length a key,
      fun hf => by cases hf⟩
    · exact (compress_hasWords ..).trans a.iv_hasWords
    · show a.blockBytes < 2 ^ 61
      cases a <;> decide

theorem CtxSlot.Updates.wellFormed {c c' : CtxSlot} (h : c.Updates c') (hc : c.WellFormed) : c'.WellFormed := by
  cases h with
  | hash hab => exact HashCtx.absorb_wellFormed hc hab
  | hmac okey hab =>
    obtain ⟨hctx, hkey, -⟩ := hc
    refine ⟨HashCtx.absorb_wellFormed hctx hab, hkey, fun hf => ?_⟩
    rw [HashCtx.absorb_phase, ((HashCtx.canAbsorb_iff ..).mp hab).1] at hf
    cases hf
  | clearKey c okey => exact ⟨hc.1, zeros_length _, fun _ => rfl⟩

theorem CtxSlot.Finishes.wellFormed {p : HashPath} {c c' : CtxSlot} (h : CtxSlot.Finishes p c c') (hc : c.WellFormed) :
    c'.WellFormed := by
  cases h with
  | hash hp => exact HashCtx.finalize_wellFormed hc (digestOf_length (HashCtx.finishWords_hasWords hc))
  | hmac okey hp =>
    exact ⟨HashCtx.finalize_wellFormed hc.1 (HashCtx.finishTag_length ..), zeros_length _, fun _ => rfl⟩

theorem CtxSlot.Updates.live {c c' : CtxSlot} (h : c.Updates c') : c ≠ .none := by cases h <;> simp

theorem CtxSlot.Finishes.live {p : HashPath} {c c' : CtxSlot} (h : CtxSlot.Finishes p c c') : c ≠ .none := by
  cases h <;> simp

@[simp] theorem State.releaseAfter_ctxAt (s : State) (p : HashPath) (j : BitVec 4) :
    (s.releaseAfter p).ctxAt j = s.ctxAt j := by
  unfold State.releaseAfter
  split <;> rfl

@[simp] theorem State.releaseAfter_cfg (s : State) (p : HashPath) : (s.releaseAfter p).cfg = s.cfg := by
  unfold State.releaseAfter
  split <;> rfl

/-- A well-formed context may be written into a slot of the block. -/
theorem State.ContextsWellFormed.setCtx {s : State} (h : s.ContextsWellFormed) {j : BitVec 4} {c : CtxSlot}
    (hc : c.WellFormed) (hj : j.toNat < s.cfg.nCtx) : (s.setCtx j c).ContextsWellFormed := by
  intro k
  by_cases hk : k = j
  · subst hk
    rw [State.ctxAt_setCtx_self]
    exact ⟨hc, fun habs => absurd hj (Nat.not_lt.mpr habs)⟩
  · rw [State.ctxAt_setCtx_ne s c hk]
    exact h k

theorem State.ContextsWellFormed.lt_nCtx {s : State} (h : s.ContextsWellFormed) {j : BitVec 4} (hj : s.ctxAt j ≠ .none) :
    j.toNat < s.cfg.nCtx :=
  Nat.lt_of_not_le fun hle => hj ((h j).2 hle)

theorem Op.keeps_contexts {i : Instr} {s t : State} (h : Op i s t) (hs : s.ContextsWellFormed) :
    t.ContextsWellFormed := by
  cases h with
  | init _ hj _ hc => exact State.ContextsWellFormed.setCtx (s := { s with shaHwOwner := _ }) hs hc.wellFormed hj
  | update _ hc => exact hs.setCtx (hc.wellFormed (hs _).1) (hs.lt_nCtx hc.live)
  | finish _ hc =>
    have h' := hs.setCtx (hc.wellFormed (hs _).1) (hs.lt_nCtx hc.live)
    simpa [State.ContextsWellFormed] using h'
  | draws _ hf => exact hf.keeps hs
  | startup => exact s.trngStartup_frame.keeps hs
  | word => exact s.trngWord_frame.keeps hs
  | _ => exact hs

theorem contexts_keptByParts : KeptByParts State.ContextsWellFormed where
  op h hs := h.keeps_contexts hs
  lock _ hs := hs
  schedule _ hs := hs
  issue _ hs := hs
  reset persist _ := (State.resetCommon_afterReset _ persist).contexts

/-- Settles O11: each elementary change keeps the invariant, by what the slot it writes can become. -/
theorem stepKeepsContexts : Obligations.StepKeepsContexts := by
  unfold Obligations.StepKeepsContexts
  exact fun _ _ hs h => contexts_keptByParts.step hs h

/-! The owner of the hash hardware (R39, R40, R46, R85) -/

theorem CtxSlot.Fresh.holdsHardware {p : HashPath} {c : CtxSlot} (h : c.Fresh p) :
    c.holdsHardware = true ↔ p = .hw := by
  cases h <;> cases p <;> simp [CtxSlot.holdsHardware, CtxSlot.context, HashCtx.fresh, hmacFresh]

theorem CtxSlot.Updates.holdsHardware {c c' : CtxSlot} (h : c.Updates c') : c'.holdsHardware = c.holdsHardware := by
  cases h <;> rfl

theorem CtxSlot.Finishes.holdsHardware {p : HashPath} {c c' : CtxSlot} (h : CtxSlot.Finishes p c c') :
    (c.holdsHardware = true ↔ p = .hw) ∧ c'.holdsHardware = false := by
  cases h with
  | hash hp => simp [CtxSlot.holdsHardware, CtxSlot.context, hp]
  | hmac okey hp => simp [CtxSlot.holdsHardware, CtxSlot.context, hp]

/-- A slot is written and the owner with it: the invariant holds if it holds of this slot, and no other slot's claim moves. -/
theorem State.HardwareOwnerRight.write {s t : State} (h : s.HardwareOwnerRight) {j : BitVec 4}
    (hctx : ∀ k, k ≠ j → t.ctxAt k = s.ctxAt k) (howner : ∀ k, k ≠ j → (t.shaHwOwner = some k ↔ s.shaHwOwner = some k))
    (hj : t.shaHwOwner = some j ↔ (t.ctxAt j).holdsHardware = true) : t.HardwareOwnerRight := by
  intro k
  by_cases hk : k = j
  · rw [hk]
    exact hj
  · rw [howner k hk, hctx k hk]
    exact h k

theorem State.HardwareOwnerRight.init {s : State} (h : s.HardwareOwnerRight) {j : BitVec 4} {sel : PathSel} {p : HashPath}
    {owner : Option (BitVec 4)} (hp : s.grabPath j sel = some (p, owner)) {c : CtxSlot} (hc : c.Fresh p) :
    ({ s with shaHwOwner := owner }.setCtx j c).HardwareOwnerRight := by
  refine h.write (j := j) (fun k hk => State.ctxAt_setCtx_ne _ c hk) (fun k hk => ?_) ?_
  · rcases State.grabPath_spec hp with ⟨-, rfl, -, ho | ho⟩ | ⟨-, rfl⟩
    · simp [ho, hk.symm]
    · simp [ho]
    · split
      · next ho => simp [ho, hk.symm]
      · rfl
  · rw [State.ctxAt_setCtx_self, hc.holdsHardware]
    rcases State.grabPath_spec hp with ⟨rfl, rfl, -⟩ | ⟨rfl, rfl⟩
    · simp
    · split
      · simp
      · next ho => simp [ho]

theorem State.HardwareOwnerRight.finish {s : State} (h : s.HardwareOwnerRight) {j : BitVec 4} {p : HashPath} {c : CtxSlot}
    (hc : (s.ctxAt j).Finishes p c) : ((s.setCtx j c).releaseAfter p).HardwareOwnerRight := by
  obtain ⟨hold, hnew⟩ := hc.holdsHardware
  have howner : s.shaHwOwner = some j ↔ p = .hw := (h j).trans hold
  refine h.write (j := j) (fun k hk => ?_) (fun k hk => ?_) ?_
  · rw [State.releaseAfter_ctxAt, State.ctxAt_setCtx_ne s c hk]
  · unfold State.releaseAfter
    split
    · next hp => simp [howner.mpr hp, hk.symm]
    · rfl
  · rw [State.releaseAfter_ctxAt, State.ctxAt_setCtx_self, hnew]
    unfold State.releaseAfter
    split
    · simp
    · next hp => simpa using fun ho => hp (howner.mp ho)

theorem Op.keeps_hardwareOwner {i : Instr} {s t : State} (h : Op i s t) (hs : s.HardwareOwnerRight) :
    t.HardwareOwnerRight := by
  cases h with
  | init _ _ hp hc => exact hs.init hp hc
  | @update j _ c hc =>
    refine hs.write (j := j) (fun k hk => State.ctxAt_setCtx_ne s c hk) (fun _ _ => Iff.rfl) ?_
    rw [State.ctxAt_setCtx_self, hc.holdsHardware]
    exact hs j
  | finish _ hc => exact hs.finish hc
  | draws _ hf => exact hf.keeps hs
  | startup => exact s.trngStartup_frame.keeps hs
  | word => exact s.trngWord_frame.keeps hs
  | _ => exact hs

theorem hardwareOwner_keptByParts : KeptByParts State.HardwareOwnerRight where
  op h hs := h.keeps_hardwareOwner hs
  lock _ hs := hs
  schedule _ hs := hs
  issue _ hs := hs
  reset persist _ := (State.resetCommon_afterReset _ persist).hardwareOwner

/-- Settles O12: the init commands choose owner and path together, and `FINAL` gives the hardware back with the context that
held it. -/
theorem stepKeepsHardwareOwner : Obligations.StepKeepsHardwareOwner := by
  unfold Obligations.StepKeepsHardwareOwner
  exact fun _ _ hs h => hardwareOwner_keptByParts.step hs h

/-! The DRBG file (R42, R220) -/

/-- What the invariant of the DRBG file says of slot `g`. -/
def Drbg.WellFormed (d : Drbg) (cfg : Config) (g : BitVec 4) : Prop :=
  d.k.length = 32 ∧ d.v.length = 32 ∧
    (d.cookie = .valid → 1 ≤ d.reseedCounter.toNat ∧ d.reseedCounter.toNat ≤ cfg.noAutoReseed.toNat) ∧
    (cfg.nDrbg ≤ g.toNat → d.cookie = .invalid)

theorem State.drbgsWellFormed_iff (s : State) : s.DrbgsWellFormed ↔ ∀ g, (s.drbgAt g).WellFormed s.cfg g := Iff.rfl

theorem State.DrbgsWellFormed.setDrbg {s : State} (h : s.DrbgsWellFormed) {g : BitVec 4} {d : Drbg}
    (hd : d.WellFormed s.cfg g) : (s.setDrbg g d).DrbgsWellFormed := by
  rw [State.drbgsWellFormed_iff]
  intro k
  by_cases hk : k = g
  · rw [hk, State.drbgAt_setDrbg_self]
    exact hd
  · rw [State.drbgAt_setDrbg_ne s d hk]
    exact h k

/-- The sentinel is above 1 (R10). -/
theorem Config.one_lt_noAutoReseed {cfg : Config} (h : cfg.Lawful) : 1 < cfg.noAutoReseed.toNat := by
  obtain ⟨-, -, -, -, -, h1, h2, -⟩ := h
  omega

theorem Drbg.instantiate_wellFormed {cfg : Config} (hl : cfg.Lawful) {g : BitVec 4} (hg : g.toNat < cfg.nDrbg)
    (seed : Bytes) (threshold : Word) : (Drbg.instantiate seed threshold).WellFormed cfg g := by
  obtain ⟨hk, hv⟩ := Drbg.update_lengths (Drbg.start threshold) seed
  refine ⟨hk, hv, fun _ => ?_, fun hle => absurd hg (Nat.not_lt.mpr hle)⟩
  rw [Drbg.instantiate_reseedCounter]
  exact ⟨le_rfl, (Config.one_lt_noAutoReseed hl).le⟩

theorem Drbg.WellFormed.reseed {cfg : Config} (hl : cfg.Lawful) {g : BitVec 4} {d : Drbg} (h : d.WellFormed cfg g)
    (seed : Bytes) : (d.reseed seed).WellFormed cfg g := by
  obtain ⟨hk, hv⟩ := Drbg.update_lengths d seed
  refine ⟨hk, hv, fun _ => ⟨le_rfl, (Config.one_lt_noAutoReseed hl).le⟩, fun hle => ?_⟩
  rw [Drbg.reseed_cookie]
  exact h.2.2.2 hle

/-- The counter goes up by one below the sentinel, and so never passes it (R216, R220). -/
theorem Drbg.WellFormed.produce {cfg : Config} (hl : cfg.Lawful) {g : BitVec 4} {d : Drbg} (h : d.WellFormed cfg g)
    (hv : d.cookie = .valid) (hc : d.reseedCounter ≠ cfg.noAutoReseed ∨ d.reseedCounter = 1) (n : Nat) (addl : Bytes) :
    (d.produce n addl).2.WellFormed cfg g := by
  obtain ⟨-, hk', hv', hcount, -, hcookie⟩ := Drbg.produce_spec d n addl
  obtain ⟨-, -, hrange, habs⟩ := h
  have hsent := Config.one_lt_noAutoReseed hl
  have hlt : d.reseedCounter.toNat < cfg.noAutoReseed.toNat := by
    rcases hc with hc | hc
    · exact Nat.lt_of_le_of_ne (hrange hv).2 fun he => hc (BitVec.eq_of_toNat_eq he)
    · rw [hc]
      exact hsent
  have hsucc : (d.produce n addl).2.reseedCounter.toNat = d.reseedCounter.toNat + 1 := by
    have := cfg.noAutoReseed.isLt
    rw [hcount, BitVec.toNat_add, show (1 : Word).toNat = 1 from rfl]
    exact Nat.mod_eq_of_lt (by omega)
  refine ⟨hk', hv', fun _ => ?_, fun hle => hcookie.trans (habs hle)⟩
  rw [hsucc]
  omega

theorem Drbg.erased_wellFormed (cfg : Config) (g : BitVec 4) : Drbg.erased.WellFormed cfg g :=
  ⟨zeros_length 32, zeros_length 32, fun h => (by cases h), fun _ => rfl⟩

theorem Op.keeps_cfg {i : Instr} {s t : State} (h : Op i s t) : t.cfg = s.cfg := by
  cases h with
  | finish => exact State.releaseAfter_cfg ..
  | draws _ hf => exact hf.keeps (P := fun t => t.cfg = s.cfg) rfl
  | startup => exact s.trngStartup_frame.keeps (P := fun t => t.cfg = s.cfg) rfl
  | word => exact s.trngWord_frame.keeps (P := fun t => t.cfg = s.cfg) rfl
  | _ => rfl

theorem Op.keeps_drbgs {i : Instr} {s t : State} (h : Op i s t) (hl : s.cfg.Lawful) (hs : s.DrbgsWellFormed) :
    t.DrbgsWellFormed := by
  cases h with
  | @instantiate g _ hg seed threshold =>
    have hlt : g.toNat < s.cfg.nDrbg := by
      rcases hg with hg | rfl
      · exact hg
      · obtain ⟨-, -, h2, -⟩ := hl
        exact Nat.lt_of_lt_of_le Nat.zero_lt_two h2
    exact hs.setDrbg (Drbg.instantiate_wellFormed hl hlt seed threshold)
  | @reseed g _ _ seed => exact hs.setDrbg (Drbg.WellFormed.reseed hl (hs g) seed)
  | @produce g _ hv hc n addl => exact hs.setDrbg (Drbg.WellFormed.produce hl (hs g) hv hc n addl)
  | erase => exact hs.setDrbg (Drbg.erased_wellFormed ..)
  | finish => exact State.releaseAfter_keeps (P := State.DrbgsWellFormed) hs hs
  | draws _ hf => exact hf.keeps hs
  | startup => exact s.trngStartup_frame.keeps hs
  | word => exact s.trngWord_frame.keeps hs
  | _ => exact hs

theorem drbgs_keptByParts : KeptByParts fun s => s.cfg.Lawful ∧ s.DrbgsWellFormed where
  op h hs := ⟨h.keeps_cfg ▸ hs.1, h.keeps_drbgs hs.1 hs.2⟩
  lock _ hs := hs
  schedule _ hs := hs
  issue _ hs := hs
  reset _ hs := ⟨hs.1, State.drbgsWellFormed_of_drbg_eq rfl⟩

/-- Settles O13: every write of a slot is a fresh, a reseeded, an advanced or an erased generator. -/
theorem stepKeepsDrbgs : Obligations.StepKeepsDrbgs := by
  unfold Obligations.StepKeepsDrbgs
  exact fun _ _ hl hs h => (drbgs_keptByParts.step ⟨hl, hs⟩ h).2

/-! The ports and the engine lock (R31, R81, R84) -/

/-- The lock is free after a run that began with it free: who takes it gives it back (R84). -/
theorem Runs.keeps_unlocked {i : Instr} {s t : State} (h : Runs i s t) (hs : s.engineBusy = false) :
    t.engineBusy = false := by
  induction h with
  | refl => exact hs
  | trans _ _ ih ih' => exact ih' (ih hs)
  | locked => rfl
  | @op s t h =>
    cases h with
    | finish => exact State.releaseAfter_keeps (P := fun t => t.engineBusy = false) hs hs
    | draws _ hf => exact hf.keeps (P := fun t => t.engineBusy = false) hs
    | startup => exact s.trngStartup_frame.keeps (P := fun t => t.engineBusy = false) hs
    | word => exact s.trngWord_frame.keeps (P := fun t => t.engineBusy = false) hs
    | _ => exact hs

theorem step_unlocked {s t : State} (hs : s.engineBusy = false) (h : step s = .next t) : t.engineBusy = false := by
  rcases step_cases s with
    ⟨-, he⟩ | ⟨rest, -, he⟩ | ⟨rest, -, he⟩ | ⟨w, a, b, c, d, rest, -, ⟨-, he⟩ | ⟨-, he⟩⟩ <;> rw [he] at h
  · cases h
    exact hs
  · cases h
    rfl
  · cases h
    rfl
  · cases h
  · rcases ((s.withSchedule rest).issue w a b c d).execute_cases with ⟨i, -, hx⟩ | ⟨e, -, hx⟩ <;> rw [hx] at h
    · exact (exec_runs i _ t h).keeps_unlocked hs
    · cases h
      exact hs

/-- All six ports are within `MAX_BUF` (R31, R81). -/
def State.PortsFit (s : State) : Prop :=
  s.InputsFit ∧ s.out0.length ≤ s.cfg.maxBuf ∧ s.out1.length ≤ s.cfg.maxBuf

theorem Op.keeps_portsFit {i : Instr} {s t : State} (h : Op i s t) (hl : s.cfg.Lawful) (hctx : s.ContextsWellFormed)
    (hs : s.PortsFit) : t.PortsFit := by
  cases h with
  | ret _ hfit => exact ⟨hs.1, hfit hl hctx hs.1⟩
  | finish => exact State.releaseAfter_keeps hs hs
  | draws _ hf => exact hf.keeps hs
  | startup => exact s.trngStartup_frame.keeps hs
  | word => exact s.trngWord_frame.keeps hs
  | _ => exact hs

theorem ports_keptByParts : KeptByParts fun s => s.cfg.Lawful ∧ s.ContextsWellFormed ∧ s.PortsFit where
  op h := fun ⟨hl, hctx, hs⟩ => ⟨h.keeps_cfg ▸ hl, h.keeps_contexts hctx, h.keeps_portsFit hl hctx hs⟩
  lock _ hs := hs
  schedule _ hs := hs
  issue hfit := fun ⟨hl, hctx, _, hout⟩ => by
    simp only [portsFit, Bool.and_eq_true, decide_eq_true_eq, and_assoc] at hfit
    exact ⟨hl, hctx, hfit, hout⟩
  reset persist hs :=
    ⟨hs.1, (State.resetCommon_afterReset _ persist).contexts,
      ⟨List.length_take_le .., List.length_take_le .., List.length_take_le .., List.length_take_le ..⟩,
      Nat.zero_le _, Nat.zero_le _⟩

/-- Settles O14: every output fits where it is made, and the lock is given back. -/
theorem stepKeepsPorts : Obligations.StepKeepsPorts := by
  unfold Obligations.StepKeepsPorts
  intro s t hl hctx ⟨h0, h1, h2, h3, ho0, ho1, hbusy⟩ h
  obtain ⟨-, -, ⟨h0', h1', h2', h3'⟩, ho0', ho1'⟩ :=
    ports_keptByParts.step (s := s) ⟨hl, hctx, ⟨h0, h1, h2, h3⟩, ho0, ho1⟩ h
  exact ⟨h0', h1', h2', h3', ho0', ho1', step_unlocked hbusy h⟩

end Sys2Proof.Machine
end

section
/-! SUPPORT. The noise source and the gate: what a word, a startup test and a fatal error leave of the TRNG record, the status and
the persisted flag, and the two invariants of them (R35 to R37, R44, R192 to R197, R360, R394). -/

namespace Sys2Proof.Machine

/-! Bits of the status (R35) -/

/-- A mask tests an OR of two words bit by bit. -/
theorem or_and_eq_zero {x y m : Word} : (x ||| y) &&& m = 0 ↔ x &&& m = 0 ∧ y &&& m = 0 := by
  rw [BitVec.and_or_distrib_right]
  exact BitVec.or_eq_zero_iff

/-- Bits outside the mask do not change what it tests. -/
theorem or_and_of_and_eq_zero {x y m : Word} (h : y &&& m = 0) : (x ||| y) &&& m = x &&& m := by
  rw [BitVec.and_or_distrib_right, h]
  exact BitVec.or_zero

/-- A mask within the error bits tests a raised word as it is. -/
theorem and_errorMask_and {m : Word} (hm : errorMask &&& m = m) (bits : Word) : bits &&& errorMask &&& m = bits &&& m := by
  rw [BitVec.and_assoc, hm]

/-- A 16-bit mask has error bits only (R35, R366). -/
theorem setWidth_and_errorMask (mask : BitVec 16) : mask.setWidth 32 &&& errorMask = mask.setWidth 32 := by
  apply BitVec.eq_of_toNat_eq
  have h : errorMask.toNat = 2 ^ 16 - 1 := rfl
  rw [BitVec.toNat_and, h, Nat.and_two_pow_sub_one_eq_mod, BitVec.toNat_setWidth,
    Nat.mod_eq_of_lt (a := mask.toNat) (by have := mask.isLt; omega), Nat.mod_eq_of_lt mask.isLt]

theorem setWidth_ne_zero {mask : BitVec 16} (h : mask ≠ 0) : mask.setWidth 32 ≠ 0 := by
  intro h0
  have h1 := congrArg BitVec.toNat h0
  rw [BitVec.toNat_setWidth, Nat.mod_eq_of_lt (by have := mask.isLt; omega)] at h1
  exact h (BitVec.eq_of_toNat_eq h1)

/-! The proportion of a window (R193) -/

theorem onesIn_eq_sum (ws : List Word) : onesIn ws = (ws.map popcount).sum := by
  rw [onesIn, sampleStream, List.countP_flatMap]
  rfl

/-- A full window passes exactly with 316 to 708 ones. -/
theorem proportionFails_eq_false {window : List Word} (h : window.length = 32) :
    proportionFails window = false ↔ 316 ≤ onesIn window ∧ onesIn window ≤ 708 := by
  have hdef : proportionFails window = (window.length == 32 &&
      (decide ((window.map popcount).sum < 316) || decide (708 < (window.map popcount).sum))) := rfl
  rw [hdef, h, onesIn_eq_sum, beq_self_eq_true, Bool.true_and, Bool.or_eq_false_iff, decide_eq_false_iff_not,
    decide_eq_false_iff_not, Nat.not_lt, Nat.not_lt]

/-! What asking the noise source leads to -/

/-- After `n` words that passed (R194): nothing is raised, the run is below the cutoff if it was, and the window has slid and is
fair if it was. -/
structure State.Passed (n : Nat) (s t : State) : Prop where
  status : t.fipsStatus = s.fipsStatus
  persist : t.pwrupDonePersist = s.pwrupDonePersist
  failed : t.trng.failed = s.trng.failed
  healthy : t.trng.healthy = s.trng.healthy
  window : s.trng.window.length ≤ 32 → t.trng.window.length = min 32 (s.trng.window.length + n)
  fair : proportionFails s.trng.window = false → proportionFails t.trng.window = false
  run : s.trng.runLen < 52 → t.trng.runLen < 52

/-- After a word that failed (R194): the latch and a TRNG bit are set, the source is not healthy, the persisted flag is gone, and
the run has gone on for at most the one word. -/
structure State.Latched (s t : State) : Prop where
  status : ∃ rct apt, (rct = true ∨ apt = true) ∧ t.fipsStatus = s.fipsStatus ||| (healthBits rct apt &&& errorMask)
  persist : t.pwrupDonePersist = false
  failed : t.trng.failed = true
  healthy : t.trng.healthy = false
  window : s.trng.window.length ≤ 32 → t.trng.window.length ≤ 32
  run : s.trng.runLen < 52 → t.trng.runLen ≤ 51 + 32

/-- After a startup test that passed (R197). -/
structure State.Started (s t : State) : Prop where
  status : t.fipsStatus = s.fipsStatus
  persist : t.pwrupDonePersist = s.pwrupDonePersist
  failed : t.trng.failed = s.trng.failed
  healthy : t.trng.healthy = true
  window : t.trng.window.length = 32
  fair : proportionFails t.trng.window = false
  run : t.trng.runLen < 52

theorem State.Passed.refl (s : State) : s.Passed 0 s where
  status := rfl
  persist := rfl
  failed := rfl
  healthy := rfl
  window h := by omega
  fair := id
  run := id

theorem State.Passed.trans {m n : Nat} {s t u : State} (h : s.Passed m t) (h' : t.Passed n u) : s.Passed (m + n) u where
  status := h'.status.trans h.status
  persist := h'.persist.trans h.persist
  failed := h'.failed.trans h.failed
  healthy := h'.healthy.trans h.healthy
  window hw := by
    have h1 := h.window hw
    have h2 := h'.window (by omega)
    omega
  fair := h'.fair ∘ h.fair
  run := h'.run ∘ h.run

theorem State.Passed.latched {n : Nat} {s t u : State} (h : s.Passed n t) (h' : t.Latched u) : s.Latched u where
  status := h.status ▸ h'.status
  persist := h'.persist
  failed := h'.failed
  healthy := h'.healthy
  window hw := h'.window (by have := h.window hw; omega)
  run := h'.run ∘ h.run

/-- The next word of the source through the health step (R194). -/
theorem State.nextWord_cases (s : State) :
    (∃ t, s.noiseWord.2.health s.noiseWord.1 = (true, t) ∧ s.Passed 1 t) ∨
      ∃ t, s.noiseWord.2.health s.noiseWord.1 = (false, t) ∧ s.Latched t := by
  have hfailed : (s.trng.runTest (samplesOf s.noiseWord.1)).1.failed = s.trng.failed := by rw [Trng.runTest_frame]
  have hhealthy : (s.trng.runTest (samplesOf s.noiseWord.1)).1.healthy = s.trng.healthy := by rw [Trng.runTest_frame]
  have hrun : (s.trng.runTest (samplesOf s.noiseWord.1)).1.runLen ≤ s.trng.runLen + 32 := by
    have := s.trng.runTest_runLen_le (samplesOf s.noiseWord.1)
    rwa [samplesOf_length] at this
  have hslide := slideWindow_length s.trng.window s.noiseWord.1
  rcases s.noiseWord.2.health_cases s.noiseWord.1 with ⟨hr, ha, h⟩ | ⟨hbad, h⟩
  · obtain ⟨hrct, -⟩ := Bool.or_eq_false_iff.mp hr
    obtain ⟨hapt, -⟩ := Bool.or_eq_false_iff.mp ha
    exact .inl ⟨_, h, {
      status := rfl
      persist := rfl
      failed := hfailed
      healthy := hhealthy
      window := hslide
      fair := fun _ => hapt
      run := fun hlt => s.trng.runTest_runLen _ hlt hrct }⟩
  · exact .inr ⟨_, h, {
      status := ⟨_, _, hbad, rfl⟩
      persist := rfl
      failed := rfl
      healthy := rfl
      window := fun hw => (hslide hw).trans_le (Nat.min_le_left ..)
      run := fun hlt => hrun.trans (by omega) }⟩

theorem State.startupLoop_cases (n : Nat) (s : State) :
    (∃ t, State.startupLoop n s = (true, t) ∧ s.Passed n t) ∨
      ∃ t, State.startupLoop n s = (false, t) ∧ s.Latched t := by
  induction n generalizing s with
  | zero => exact .inl ⟨s, rfl, .refl s⟩
  | succ n ih =>
    simp only [State.startupLoop]
    rcases s.nextWord_cases with ⟨t, h, hp⟩ | ⟨t, h, hl⟩
    · rw [h]
      rcases ih t with ⟨u, hu, hpu⟩ | ⟨u, hu, hlu⟩
      · exact .inl ⟨u, hu, Nat.add_comm n 1 ▸ hp.trans hpu⟩
      · exact .inr ⟨u, hu, hp.latched hlu⟩
    · rw [h]
      exact .inr ⟨t, rfl, hl⟩

/-- The record that a startup test begins with (R197). -/
def State.startupBegun (s : State) : State :=
  { s with trng := { s.trng with runBit := none, runLen := 0, window := [], healthy := false } }

/-- Everything a startup test can do: nothing, where it may not run; pass; or latch (R197). -/
theorem State.trngStartup_cases (s : State) :
    s.trngStartup.2 = s ∨ s.trng.failed = false ∧ (s.Started s.trngStartup.2 ∨ s.Latched s.trngStartup.2) := by
  unfold State.trngStartup
  split
  · exact .inl rfl
  · next hc =>
    have hf : s.trng.failed = false := by
      simp only [Bool.or_eq_true, not_or, Bool.not_eq_true] at hc
      exact hc.2
    refine .inr ⟨hf, ?_⟩
    rcases State.startupLoop_cases Config.startupWords s.startupBegun with ⟨t, h, hp⟩ | ⟨t, h, hl⟩
    · refine .inl ?_
      simp only [State.startupBegun] at h
      simp only [h]
      exact {
        status := hp.status
        persist := hp.persist
        failed := hp.failed
        healthy := rfl
        window := hp.window (Nat.zero_le _)
        fair := hp.fair rfl
        run := hp.run (Nat.zero_lt_succ _) }
    · refine .inr ?_
      simp only [State.startupBegun] at h
      simp only [h]
      exact {
        status := hl.status
        persist := hl.persist
        failed := hl.failed
        healthy := hl.healthy
        window := fun _ => hl.window (Nat.zero_le _)
        run := fun _ => hl.run (Nat.zero_lt_succ _) }

/-- Everything `trng_word()` can do: nothing, where the source is latched or not healthy; deliver; or latch (R198). -/
theorem State.trngWord_cases (s : State) :
    s.trngWord.2 = s ∨
      s.trng.failed = false ∧ s.trng.healthy = true ∧ (s.Passed 1 s.trngWord.2 ∨ s.Latched s.trngWord.2) := by
  unfold State.trngWord
  split
  · exact .inl rfl
  · next hc =>
    simp only [Bool.or_eq_true, not_or, Bool.not_eq_true, Bool.not_eq_false'] at hc
    refine .inr ⟨hc.1, hc.2, ?_⟩
    rcases s.nextWord_cases with ⟨t, h, hp⟩ | ⟨t, h, hl⟩
    · simp only [h]
      exact .inl hp
    · simp only [h]
      exact .inr hl

/-! The gate (R35 to R37, R360, R394) -/

/-- The gate looks at the status, the persisted flag and the health of the source alone. -/
theorem State.GateWellFormed.congr {s t : State} (h : s.GateWellFormed) (hst : t.fipsStatus = s.fipsStatus)
    (hp : t.pwrupDonePersist = s.pwrupDonePersist) (hh : s.trng.healthy = true → t.trng.healthy = true) :
    t.GateWellFormed := by
  obtain ⟨hres, hsig, herr, hopen⟩ := h
  refine ⟨by rw [hst]; exact hres, by rw [hst]; exact hsig, fun hpt => ?_, fun ho => ?_⟩
  · rw [State.hasError, hst]
    exact herr (hp ▸ hpt)
  · obtain ⟨hps, hhs⟩ := hopen (State.cryptoAllowed_congr hst ▸ ho)
    exact ⟨hp.trans hps, hh hhs⟩

/-- A fatal error closes the gate for good: an error bit is set and the persisted flag is gone (R394). -/
theorem State.GateWellFormed.raised {s t : State} (h : s.GateWellFormed) {bits : Word}
    (hst : t.fipsStatus = s.fipsStatus ||| (bits &&& errorMask)) (hb : bits &&& errorMask ≠ 0)
    (hp : t.pwrupDonePersist = false) : t.GateWellFormed := by
  obtain ⟨hres, hsig, -, -⟩ := h
  refine ⟨?_, ?_, fun hpt => ?_, fun ho => ?_⟩
  · rw [hst, or_and_of_and_eq_zero]
    · exact hres
    · rw [BitVec.and_assoc]
      exact BitVec.and_zero
  · simpa [hst, errorMask] using hsig
  · rw [hp] at hpt
    cases hpt
  · have h0 := ((State.cryptoAllowed_iff t).mp ho).2
    rw [hst, or_and_eq_zero, and_errorMask_and BitVec.and_self] at h0
    exact absurd h0.2 hb

theorem healthBits_and_errorMask {rct apt : Bool} (h : rct = true ∨ apt = true) :
    healthBits rct apt &&& errorMask ≠ 0 := by
  rcases h with rfl | rfl
  · cases apt <;> decide
  · cases rct <;> decide

theorem State.GateWellFormed.latched {s t : State} (h : s.GateWellFormed) (hl : s.Latched t) : t.GateWellFormed := by
  obtain ⟨rct, apt, hbad, hst⟩ := hl.status
  exact h.raised hst (healthBits_and_errorMask hbad) hl.persist

/-- The two signal bits go up together, with the flag, where no error is recorded and the source is healthy (R360). -/
theorem State.GateWellFormed.openGate {s : State} (h : s.GateWellFormed) (he : s.hasError = false)
    (hh : s.trng.healthy = true) : s.openGate.GateWellFormed := by
  have hsame : ∀ m : Word, powerUpTestDone &&& m = 0 → modeActive &&& m = 0 →
      s.openGate.fipsStatus &&& m = s.fipsStatus &&& m := fun m h1 h2 =>
    (or_and_of_and_eq_zero h2).trans (or_and_of_and_eq_zero h1)
  refine ⟨(hsame _ rfl rfl).trans h.1, ?_, fun _ => ?_, fun _ => ⟨rfl, hh⟩⟩
  · simp [State.openGate, powerUpTestDone, modeActive]
  · rw [State.hasError, hsame errorMask rfl rfl]
    exact he

theorem Op.keeps_gate {i : Instr} {s t : State} (h : Op i s t) (hs : s.GateWellFormed) : t.GateWellFormed := by
  cases h with
  | startup =>
    rcases s.trngStartup_cases with he | ⟨-, hst | hl⟩
    · rwa [he]
    · exact hs.congr hst.status hst.persist fun _ => hst.healthy
    · exact hs.latched hl
  | word =>
    rcases s.trngWord_cases with he | ⟨-, -, hp | hl⟩
    · rwa [he]
    · exact hs.congr hp.status hp.persist hp.healthy.trans
    · exact hs.latched hl
  | raise bits _ he => exact hs.raised rfl he rfl
  | throw mask _ hm =>
    refine hs.raised (bits := mask.setWidth 32) rfl ?_ rfl
    rw [setWidth_and_errorMask]
    exact setWidth_ne_zero hm
  | openGate _ he hh => exact hs.openGate he hh
  | draws _ hf => exact hf.keeps hs
  | finish => exact State.releaseAfter_keeps hs hs
  | _ => exact hs

theorem gate_keptByParts : KeptByParts State.GateWellFormed where
  op h hs := h.keeps_gate hs
  lock _ hs := hs
  schedule _ hs := hs
  issue _ hs := hs
  reset persist _ := (State.resetCommon_afterReset _ persist).gate

/-- Settles O9: every fatal error closes the gate and clears the flag, and only a healthy source without an error opens it. -/
theorem stepKeepsGate : Obligations.StepKeepsGate := by
  unfold Obligations.StepKeepsGate
  exact fun _ _ hs h => gate_keptByParts.step hs h

/-! The TRNG record (R44, R192 to R195, R200, R401) -/

/-- The invariant looks at the record and the two TRNG bits alone. -/
theorem State.TrngWellFormed.congr {s t : State} (h : s.TrngWellFormed) (ht : t.trng = s.trng)
    (hst : t.fipsStatus &&& 0x6 = s.fipsStatus &&& 0x6) : t.TrngWellFormed := by
  unfold State.TrngWellFormed
  rw [ht, hst]
  exact h

/-- The invariant of a record that is not latched. -/
theorem State.trngWellFormed_of_calm {t : State} (hw : t.trng.window.length ≤ 32) (hr : t.trng.runLen < 52)
    (hf : t.trng.failed = false) (hst : t.fipsStatus &&& 0x6 = 0)
    (hh : t.trng.healthy = true → t.trng.window.length = 32 ∧ proportionFails t.trng.window = false) :
    t.TrngWellFormed := by
  refine ⟨hw, by omega, ?_, fun _ => ⟨hr, t.trng.runCounter_spec.2.2 hr⟩, fun hht => ?_⟩
  · rw [hf, hst]
    simp
  · obtain ⟨hlen, hfair⟩ := hh hht
    exact ⟨hlen, (proportionFails_eq_false hlen).mp hfair⟩

/-- What the invariant says of a record that is not latched. -/
theorem State.TrngWellFormed.calm {s : State} (h : s.TrngWellFormed) (hf : s.trng.failed = false) :
    s.trng.runLen < 52 ∧ s.fipsStatus &&& 0x6 = 0 := by
  obtain ⟨-, -, hlatch, hrun, -⟩ := h
  refine ⟨(hrun hf).1, Decidable.byContradiction fun hne => ?_⟩
  have := hlatch.mpr hne
  rw [hf] at this
  cases this

theorem healthBits_and_trng {rct apt : Bool} (h : rct = true ∨ apt = true) : healthBits rct apt &&& 0x6 ≠ 0 := by
  rcases h with rfl | rfl
  · cases apt <;> decide
  · cases rct <;> decide

theorem State.TrngWellFormed.latched {s t : State} (h : s.TrngWellFormed) (hf : s.trng.failed = false)
    (hl : s.Latched t) : t.TrngWellFormed := by
  obtain ⟨rct, apt, hbad, hst⟩ := hl.status
  have hbits : t.fipsStatus &&& 0x6 ≠ 0 := by
    rw [hst]
    intro h0
    rw [or_and_eq_zero, and_errorMask_and rfl] at h0
    exact healthBits_and_trng hbad h0.2
  refine ⟨hl.window h.1, hl.run (h.calm hf).1, ⟨fun _ => hbits, fun _ => hl.failed⟩, fun hft => ?_, fun hht => ?_⟩
  · rw [hl.failed] at hft
    cases hft
  · rw [hl.healthy] at hht
    cases hht

theorem State.TrngWellFormed.passed {s t : State} (h : s.TrngWellFormed) (hf : s.trng.failed = false)
    (hh : s.trng.healthy = true) (hp : s.Passed 1 t) : t.TrngWellFormed := by
  obtain ⟨hrun, hst⟩ := h.calm hf
  obtain ⟨hw, -, -, -, hhealthy⟩ := h
  obtain ⟨hlen, hones⟩ := hhealthy hh
  have hwt := hp.window hw
  exact State.trngWellFormed_of_calm (by omega) (hp.run hrun) (hp.failed.trans hf) (hp.status ▸ hst)
    fun _ => ⟨by omega, hp.fair ((proportionFails_eq_false hlen).mpr hones)⟩

theorem State.TrngWellFormed.started {s t : State} (h : s.TrngWellFormed) (hf : s.trng.failed = false)
    (hp : s.Started t) : t.TrngWellFormed :=
  State.trngWellFormed_of_calm hp.window.le hp.run (hp.failed.trans hf) (hp.status ▸ (h.calm hf).2)
    fun _ => ⟨hp.window, hp.fair⟩

/-- A recorded error sets the latch with the TRNG bits (R44, R366). -/
theorem State.TrngWellFormed.thrown {s : State} (h : s.TrngWellFormed) (mask : BitVec 16) :
    ((s.latchTrng (mask.setWidth 32)).raiseFatal (mask.setWidth 32)).TrngWellFormed := by
  obtain ⟨hw, hr, hlatch, hrun, hhealthy⟩ := h
  refine ⟨hw, hr, ?_, fun hf => hrun (Bool.or_eq_false_iff.mp hf).1, hhealthy⟩
  rw [State.raiseFatal_fipsStatus, Ne, or_and_eq_zero, and_errorMask_and rfl]
  show (s.trng.failed || mask.setWidth 32 &&& 0x6 != 0) = true ↔
    ¬(s.fipsStatus &&& 0x6 = 0 ∧ mask.setWidth 32 &&& 0x6 = 0)
  rw [Bool.or_eq_true, hlatch, bne_iff_ne, not_and_or]

theorem Op.keeps_trng {i : Instr} {s t : State} (h : Op i s t) (hs : s.TrngWellFormed) : t.TrngWellFormed := by
  cases h with
  | startup =>
    rcases s.trngStartup_cases with he | ⟨hf, hst | hl⟩
    · rwa [he]
    · exact hs.started hf hst
    · exact hs.latched hf hl
  | word =>
    rcases s.trngWord_cases with he | ⟨hf, hh, hp | hl⟩
    · rwa [he]
    · exact hs.passed hf hh hp
    · exact hs.latched hf hl
  | raise bits _ _ ht =>
    exact hs.congr rfl (or_and_of_and_eq_zero ((and_errorMask_and rfl bits).trans ht))
  | throw mask => exact hs.thrown mask
  | openGate => exact hs.congr rfl ((or_and_of_and_eq_zero rfl).trans (or_and_of_and_eq_zero rfl))
  | draws _ hf => exact hf.keeps hs
  | finish => exact State.releaseAfter_keeps hs hs
  | _ => exact hs

theorem trng_keptByParts : KeptByParts State.TrngWellFormed where
  op h hs := h.keeps_trng hs
  lock _ hs := hs
  schedule _ hs := hs
  issue _ hs := hs
  reset persist _ := (State.resetCommon_afterReset _ persist).trng

/-- Settles O10: a word passes or latches, a startup test begins with an empty record, and every other error bit either is none
of the TRNG's or sets the latch with it. -/
theorem stepKeepsTrng : Obligations.StepKeepsTrng := by
  unfold Obligations.StepKeepsTrng
  exact fun _ _ hs h => trng_keptByParts.step hs h

end Sys2Proof.Machine
end

section
/-! SUPPORT. The frames of all commands: the inputs and parameters (R31, R84, R95), the noise source and the draws (R89, R47). -/

namespace Sys2Proof.Machine

/-! Inputs, parameters and the schedule -/

/-- What no command changes. -/
structure State.SameInputs (s t : State) : Prop where
  cmd : t.cmd = s.cmd
  cfg : t.cfg = s.cfg
  schedule : t.env.schedule = s.env.schedule
  resetCount : t.env.resetCount = s.env.resetCount
  in0 : t.in0 = s.in0
  in1 : t.in1 = s.in1
  in2 : t.in2 = s.in2
  in3 : t.in3 = s.in3

theorem State.SameInputs.refl (s : State) : s.SameInputs s := ⟨rfl, rfl, rfl, rfl, rfl, rfl, rfl, rfl⟩

theorem Op.keeps_inputs {i : Instr} {s t u : State} (h : Op i t u) (hs : s.SameInputs t) : s.SameInputs u := by
  have copy : ∀ {v : State}, t.SameInputs v → s.SameInputs v := fun hv =>
    ⟨hv.cmd.trans hs.cmd, hv.cfg.trans hs.cfg, hv.schedule.trans hs.schedule, hv.resetCount.trans hs.resetCount,
      hv.in0.trans hs.in0, hv.in1.trans hs.in1, hv.in2.trans hs.in2, hv.in3.trans hs.in3⟩
  refine copy ?_
  cases h with
  | draws _ hf => exact hf.keeps (P := t.SameInputs) ⟨rfl, rfl, rfl, rfl, rfl, rfl, rfl, rfl⟩
  | startup => exact t.trngStartup_frame.keeps (P := t.SameInputs) ⟨rfl, rfl, rfl, rfl, rfl, rfl, rfl, rfl⟩
  | word => exact t.trngWord_frame.keeps (P := t.SameInputs) ⟨rfl, rfl, rfl, rfl, rfl, rfl, rfl, rfl⟩
  | finish =>
    exact State.releaseAfter_keeps (P := t.SameInputs) ⟨rfl, rfl, rfl, rfl, rfl, rfl, rfl, rfl⟩
      ⟨rfl, rfl, rfl, rfl, rfl, rfl, rfl, rfl⟩
  | _ => exact ⟨rfl, rfl, rfl, rfl, rfl, rfl, rfl, rfl⟩

theorem exec_sameInputs {i : Instr} {s t : State} (h : exec i s = .next t) : s.SameInputs t :=
  (exec_runs i s t h).keeps (P := s.SameInputs) (fun ho hs => ho.keeps_inputs hs)
    (fun _ hs => ⟨hs.cmd, hs.cfg, hs.schedule, hs.resetCount, hs.in0, hs.in1, hs.in2, hs.in3⟩) (.refl s)

theorem State.SameInputs.port {s t : State} (h : s.SameInputs t) {p : Port} (h0 : p ≠ .out0) (h1 : p ≠ .out1) :
    t.port p = s.port p := by
  cases p with
  | in0 => exact h.in0
  | in1 => exact h.in1
  | in2 => exact h.in2
  | in3 => exact h.in3
  | out0 => exact absurd rfl h0
  | out1 => exact absurd rfl h1

/-- Settles O17: no elementary change writes an input, and a run gives the lock back. -/
theorem commandsLeaveInputs : Obligations.CommandsLeaveInputs := by
  unfold Obligations.CommandsLeaveInputs
  intro i s t h
  have hin := exec_sameInputs h
  refine ⟨hin.cmd, hin.cfg, hin.schedule, hin.resetCount, (exec_runs i s t h).keeps_unlocked, fun p off h0 h1 => ?_⟩
  have hp := hin.port h0 h1
  exact ⟨congrArg List.length hp, congrArg (·[off]?) hp⟩

/-! The noise source and the draws -/

/-- What a command that does not ask the noise source leaves of it; the latch may follow a `FIPS_THROW_ERR` (R44, R366). -/
structure State.SameNoise (i : Instr) (s t : State) : Prop where
  trng : t.trng = { s.trng with failed := t.trng.failed }
  latch : (∀ mask, i ≠ .fipsThrowErr mask) → t.trng.failed = s.trng.failed
  noise : t.env.noise = s.env.noise
  noiseCount : t.env.noiseCount = s.env.noiseCount

theorem State.SameNoise.refl (i : Instr) (s : State) : State.SameNoise i s s := ⟨rfl, fun _ => rfl, rfl, rfl⟩

theorem Op.keeps_noise {i : Instr} (hi : i.asksNoise = false) {s t u : State} (h : Op i t u)
    (hs : State.SameNoise i s t) : State.SameNoise i s u := by
  cases h with
  | startup hn => cases hi.symm.trans hn
  | word hn => cases hi.symm.trans hn
  | throw mask hthrow =>
    have hrecord := congrArg (fun r : Trng => { r with failed := (t.latchTrng (mask.setWidth 32)).trng.failed }) hs.trng
    exact ⟨hrecord, fun hne => absurd hthrow (hne mask), hs.noise, hs.noiseCount⟩
  | draws _ hf =>
    exact hf.keeps (P := State.SameNoise i s) ⟨hs.trng, hs.latch, hs.noise, hs.noiseCount⟩
  | finish =>
    exact State.releaseAfter_keeps (P := State.SameNoise i s) ⟨hs.trng, hs.latch, hs.noise, hs.noiseCount⟩
      ⟨hs.trng, hs.latch, hs.noise, hs.noiseCount⟩
  | _ => exact ⟨hs.trng, hs.latch, hs.noise, hs.noiseCount⟩

/-- The draws to come and made are the same. -/
def State.SameDraws (s t : State) : Prop := t.env.draws = s.env.draws ∧ t.env.drawCount = s.env.drawCount

theorem Op.keeps_draws {i : Instr} (hi : i.makesDraws = false) {s t u : State} (h : Op i t u) (hs : s.SameDraws t) :
    s.SameDraws u := by
  cases h with
  | draws hd => cases hi.symm.trans hd
  | startup => exact t.trngStartup_frame.keeps hs
  | word => exact t.trngWord_frame.keeps hs
  | finish => exact State.releaseAfter_keeps hs hs
  | _ => exact hs

/-- Settles O21: an elementary change that asks or draws is one of a command that may. -/
theorem drawsOfCommands : Obligations.DrawsOfCommands := by
  unfold Obligations.DrawsOfCommands
  intro i s t h
  have hr := exec_runs i s t h
  refine ⟨fun hi => ?_, fun hi => ?_⟩
  · have hn := hr.keeps (P := State.SameNoise i s) (fun ho hs => ho.keeps_noise hi hs)
      (fun _ hs => ⟨hs.trng, hs.latch, hs.noise, hs.noiseCount⟩) (.refl i s)
    exact ⟨hn.trng, hn.latch, hn.noise, hn.noiseCount⟩
  · exact hr.keeps (P := s.SameDraws) (fun ho hs => ho.keeps_draws hi hs) (fun _ hs => hs) ⟨rfl, rfl⟩

end Sys2Proof.Machine
end

section
/-! SUPPORT. `DRBG_GENERATE` without auto-reseed (R215, R216): its output as a concatenation of the successive `V`, and its
refusals. -/

namespace Sys2Proof.Machine

/-- The output loop: each turn replaces `V` by its HMAC (R216). -/
theorem drbgBlocks_eq (k : Bytes) (n : Nat) (v : Bytes) :
    drbgBlocks k n v =
      ((List.range n).flatMap fun j => (hmac .sha256 k)^[j + 1] v, (hmac .sha256 k)^[n] v) := by
  induction n generalizing v with
  | zero => rfl
  | succ n ih =>
    rw [drbgBlocks, ih, List.range_succ_eq_map, List.flatMap_cons, List.flatMap_map]
    rfl

/-- The bytes and the generator after a call without auto-reseed (R216). -/
theorem Drbg.produce_eq (d : Drbg) (n : Nat) (addl : Bytes) :
    let d1 := if addl = [] then d else d.update addl
    let v := fun j => (hmac .sha256 d1.k)^[j] d1.v
    let m := (n + 31) / 32
    d.produce n addl = (((List.range m).flatMap fun j => v (j + 1)).take n,
      { ({ d1 with v := v m } : Drbg).update addl with reseedCounter := d.reseedCounter + 1 }) := by
  have hd : (if addl.length > 0 then d.update addl else d) = if addl = [] then d else d.update addl := by
    cases addl <;> simp
  have hc := (d.produce_spec n addl).2.2.2.1
  simp only [Drbg.produce, hd, drbgBlocks_eq] at hc ⊢
  rw [hc]

theorem Drbg.refuses_fail {d : Drbg} {sentinel : Word} {n : Nat} (h : d.cookie = .invalid ∨ 937 < n) :
    d.refuses sentinel n = some .fail := by
  unfold Drbg.refuses Config.drbgMaxOut
  rcases h with h | h <;> simp [h]

theorem Drbg.refuses_reseedNeeded {d : Drbg} {n : Nat} (hv : d.cookie = .valid) (hn : n ≤ 937) :
    d.refuses d.reseedCounter n = some .reseedNeeded := by
  simp [Drbg.refuses, Config.drbgMaxOut, hv, Nat.not_lt.mpr hn]

/-- `DRBG_GENERATE` with an open gate on a slot of the block is the generate call (R215). -/
theorem exec_drbgGenerate {s : State} {g : BitVec 4} {n : BitVec 16} (ho : s.cryptoAllowed = true)
    (hg : g.toNat < s.cfg.nDrbg) :
    exec (.drbgGenerate g n) s = .next ((s.drbgGenerate g n.toNat s.in0).2.2.ret (s.drbgGenerate g n.toNat s.in0).1
      (s.drbgGenerate g n.toNat s.in0).2.1 []) := by
  show Host.Outcome.next (s.gated _) = _
  rw [State.gated_open ho, if_pos (by simpa [State.isDrbgSlot] using hg)]

theorem exec_drbgGenerate_absent {s : State} {g : BitVec 4} {n : BitVec 16} (ho : s.cryptoAllowed = true)
    (hg : s.cfg.nDrbg ≤ g.toNat) : exec (.drbgGenerate g n) s = .next (s.ret .fail [] []) := by
  show Host.Outcome.next (s.gated _) = _
  rw [State.gated_open ho, if_neg (by simpa [State.isDrbgSlot] using hg), State.fail_eq]

theorem State.drbgGenerate_refused {s : State} {g : BitVec 4} {n : Nat} {addl : Bytes} {code : Result}
    (h : (s.drbgAt g).refuses s.cfg.noAutoReseed n = some code) : s.drbgGenerate g n addl = (code, [], s) := by
  simp only [State.drbgGenerate, h]

theorem State.drbgGenerate_answered {s : State} {g : BitVec 4} {n : Nat} {addl : Bytes}
    (h : (s.drbgAt g).refuses s.cfg.noAutoReseed n = none) (hd : (s.drbgAt g).reseedDue = false) :
    s.drbgGenerate g n addl =
      (.ok, ((s.drbgAt g).produce n addl).1, s.setDrbg g ((s.drbgAt g).produce n addl).2) := by
  simp only [State.drbgGenerate, h, hd, Bool.false_eq_true, if_false]

/-- Settles O37: `drbg_generate` by its tests, its answer by the equation of `Drbg.produce`. -/
theorem drbgGenerateAnswers : Obligations.DrbgGenerateAnswers := by
  unfold Obligations.DrbgGenerateAnswers
  refine ⟨fun s g n ho hg hv hn hc hdue => ?_, fun s g n ho => ⟨fun hbad => ?_, fun hg hv hn hc => ?_⟩⟩
  · have hlen := ((s.drbgAt g).produce_spec n.toNat s.in0).1
    have hcall := State.drbgGenerate_answered (addl := s.in0) (Drbg.refuses_eq_none.mpr ⟨hv, hn, hc⟩)
      (decide_eq_false (Nat.not_lt.mpr hdue))
    have hexec := exec_drbgGenerate (n := n) ho hg
    rw [hcall] at hexec
    simp only [Drbg.produce_eq] at hlen hexec
    exact ⟨hlen, hexec⟩
  · rcases Nat.lt_or_ge g.toNat s.cfg.nDrbg with hg | hg
    · have hrefuse := Drbg.refuses_fail (sentinel := s.cfg.noAutoReseed) (hbad.resolve_left (Nat.not_le.mpr hg))
      rw [exec_drbgGenerate ho hg, State.drbgGenerate_refused hrefuse]
      rfl
    · exact exec_drbgGenerate_absent ho hg
  · have hrefuse := Drbg.refuses_reseedNeeded hv hn
    rw [hc] at hrefuse
    rw [exec_drbgGenerate ho hg, State.drbgGenerate_refused hrefuse]
    rfl

end Sys2Proof.Machine
end

section
/-! SUPPORT. The step by its event, the reset state, the context commands that fail, and the two commands that write bits of the
FIPS unit (R48, R83, R151 to R174, R366, R368). -/

namespace Sys2Proof.Machine

/-! The step (R83, R403, R420) -/

/-- Settles O4: the ports fit, and the word in `CMD` decodes. -/
theorem stepRunsDecodedInstruction : Obligations.StepRunsDecodedInstruction := by
  unfold Obligations.StepRunsDecodedInstruction
  intro s w a b c d rest i hs ha hb hc hd hw
  have hfit : portsFit s.cfg.maxBuf a b c d = true := by simp [portsFit, ha, hb, hc, hd]
  simp only [step, hs, hfit, if_true, State.execute, State.issue_cmd, hw]
  rfl

theorem step_hardReset {s : State} {rest : List Event} (h : s.env.schedule = .hardReset :: rest) :
    step s = .next (s.withSchedule rest).hardReset := by
  simp only [step, h]

theorem step_resume {s : State} {rest : List Event} (h : s.env.schedule = .resume :: rest) :
    step s = .next (s.withSchedule rest).resume := by
  simp only [step, h]

/-- Settles O7: both events are `resetCommon` with a value of the persisted flag. -/
theorem resetEventsClearState : Obligations.ResetEventsClearState := by
  unfold Obligations.ResetEventsClearState
  refine ⟨fun s rest h => ?_, fun s rest h => ?_⟩
  · exact ⟨_, step_hardReset h, (s.withSchedule rest).resetCommon_afterReset false, rfl, rfl, rfl, rfl, rfl⟩
  · exact ⟨_, step_resume h, (s.withSchedule rest).resetCommon_afterReset s.pwrupDonePersist, rfl, rfl, rfl, rfl, rfl⟩

theorem State.reset_afterReset : State.reset.AfterReset :=
  ⟨rfl, rfl, rfl, rfl, fun j => by simp [State.ctxAt, State.reset, State.resetWith],
    fun g => congrArg Drbg.cookie (drbgAfterReset_getElem 0 g), rfl, rfl, rfl⟩

/-- Settles O8: the reset state holds the values of the table, from which the invariants follow. -/
theorem resetMeetsInvariants : Obligations.ResetMeetsInvariants := by
  unfold Obligations.ResetMeetsInvariants
  have h := State.reset_afterReset
  have hports : State.reset.PortsWellFormed :=
    ⟨Nat.zero_le _, Nat.zero_le _, Nat.zero_le _, Nat.zero_le _, Nat.zero_le _, Nat.zero_le _, rfl⟩
  exact ⟨h, rfl, by decide, h.gate, h.trng, h.contexts, h.hardwareOwner, State.drbgsWellFormed_of_drbg_eq rfl, hports⟩

/-! Dead contexts (R151, R152, R155, R173, R174) -/

section DeadContexts

variable {s : State} {j : BitVec 4} (ho : s.cryptoAllowed = true)

include ho

theorem exec_hashUpdate_fails (h : ∀ c, s.isCtxSlot j = true → s.ctxAt j = .hash c → c.canAbsorb s.in0 = false) :
    exec (.hashUpdate j) s = .next (s.ret .fail [] []) := by
  show Host.Outcome.next (s.gated _) = _
  rw [State.gated_open ho]
  split
  · next c hj hc => rw [h c hj hc, if_neg Bool.false_ne_true, State.fail_eq]
  · rfl

theorem exec_hmacUpdate_fails
    (h : ∀ c okey, s.isCtxSlot j = true → s.ctxAt j = .hmac c okey → c.canAbsorb s.in0 = false) :
    exec (.hmacUpdate j) s = .next (s.ret .fail [] []) := by
  show Host.Outcome.next (s.gated _) = _
  rw [State.gated_open ho]
  split
  · next c okey hj hc => rw [h c okey hj hc, if_neg Bool.false_ne_true, State.fail_eq]
  · rfl

theorem exec_hashFinal_fails (h : ∀ c, s.isCtxSlot j = true → s.ctxAt j ≠ .hash c) :
    exec (.hashFinal j) s = .next (s.ret .fail [] []) := by
  show Host.Outcome.next (s.gated _) = _
  rw [State.gated_open ho]
  split
  · next c hj hc => exact absurd hc (h c hj)
  · rfl

theorem exec_hmacFinal_fails (h : ∀ c okey, s.isCtxSlot j = true → s.ctxAt j ≠ .hmac c okey) :
    exec (.hmacFinal j) s = .next (s.ret .fail [] []) := by
  show Host.Outcome.next (if s.cryptoAllowed then _ else _) = _
  rw [if_pos ho]
  split
  · next c okey hj hc => exact absurd hc (h c okey hj)
  · rfl

end DeadContexts

/-- A slot from `N_CTX` on is absent (R112). -/
theorem State.not_isCtxSlot {s : State} {j : BitVec 4} (h : s.cfg.nCtx ≤ j.toNat) : s.isCtxSlot j ≠ true := by
  simpa [State.isCtxSlot] using h

theorem HashCtx.canAbsorb_eq_false {c : HashCtx} {data : Bytes}
    (h : c.phase = .finalized ∨ 2 ^ 61 ≤ c.count + data.length) : c.canAbsorb data = false := by
  rw [← Bool.not_eq_true, HashCtx.canAbsorb_iff]
  rintro ⟨hactive, hlt⟩
  rcases h with h | h
  · rw [hactive] at h
    cases h
  · exact absurd hlt (Nat.not_lt.mpr h)

/-- Settles O26: each of the four commands fails unless its slot holds a context it can work on. -/
theorem deadContextsFail : Obligations.DeadContextsFail := by
  unfold Obligations.DeadContextsFail
  refine ⟨fun s j ho h => exec_hashUpdate_fails ho fun c hj hc => ?_,
    fun s j ho h => exec_hmacUpdate_fails ho fun c okey hj hc => ?_, fun s j ho => ⟨fun h => ?_, fun h => ?_⟩⟩
  · rcases h with habs | hkind | ⟨c', hc', hdead⟩
    · exact absurd hj (State.not_isCtxSlot habs)
    · exact absurd hc (hkind c)
    · cases hc.symm.trans hc'
      exact HashCtx.canAbsorb_eq_false hdead
  · rcases h with habs | hkind | ⟨c', okey', hc', hdead⟩
    · exact absurd hj (State.not_isCtxSlot habs)
    · exact absurd hc (hkind c okey)
    · cases hc.symm.trans hc'
      exact HashCtx.canAbsorb_eq_false hdead
  · exact exec_hashFinal_fails ho fun c hj => h.elim (fun habs => absurd hj (State.not_isCtxSlot habs)) fun hk => hk c
  · exact exec_hmacFinal_fails ho fun c okey hj =>
      h.elim (fun habs => absurd hj (State.not_isCtxSlot habs)) fun hk => hk c okey

/-! `FIPS_THROW_ERR` and `FIPS_INJECT` (R366, R368) -/

/-- The fields of a word that is an opcode, eight zero bits and an argument (R110). -/
theorem fields_of_argWord (opc : BitVec 8) (arg : BitVec 16) :
    opcOf (opc ++ 0#8 ++ arg) = opc ∧ algOf (opc ++ 0#8 ++ arg) = 0 ∧ selOf (opc ++ 0#8 ++ arg) = 0 ∧
      argOf (opc ++ 0#8 ++ arg) = arg := by
  refine ⟨?_, ?_, ?_, BitVec.extractLsb'_append_eq_right⟩
  · rw [opcOf, BitVec.extractLsb'_append_eq_of_le (by decide), BitVec.extractLsb'_append_eq_left]
  · rw [algOf, BitVec.extractLsb'_append_eq_of_le (by decide), BitVec.extractLsb'_append_eq_of_add_le (by decide)]
    rfl
  · rw [selOf, BitVec.extractLsb'_append_eq_of_le (by decide), BitVec.extractLsb'_append_eq_of_add_le (by decide)]
    rfl

theorem decode_argWord (opc : BitVec 8) (arg : BitVec 16) : decode (opc ++ 0#8 ++ arg) = decodeFields opc 0 0 arg := by
  obtain ⟨ho, ha, hs, harg⟩ := fields_of_argWord opc arg
  rw [decode, ho, ha, hs, harg]

theorem setWidth_eq_zero_append (mask : BitVec 16) : mask.setWidth 32 = 0#16 ++ mask := by
  rw [BitVec.setWidth_eq_append (by decide)]
  rfl

/-- The TRNG bits of a mask, tested in 16 bits or in 32 (R35). -/
theorem setWidth_trngBits (mask : BitVec 16) :
    (mask.setWidth 32 &&& (errTrngRct ||| errTrngApt) != 0) = decide (mask &&& 0x6 ≠ 0) := by
  have h : mask.setWidth 32 &&& (errTrngRct ||| errTrngApt) = (mask &&& 0x6).setWidth 32 := by
    rw [BitVec.setWidth_and]
    rfl
  rw [h, Bool.eq_iff_iff, bne_iff_ne, decide_eq_true_iff]
  refine not_congr ⟨fun h0 => ?_, fun h0 => by rw [h0]; rfl⟩
  exact Decidable.byContradiction fun hne => setWidth_ne_zero hne h0

/-- Settles O58: the words by their fields, the effects by the definitions of `raise Fatal` and of the latch. -/
theorem throwAndInject : Obligations.ThrowAndInject := by
  unfold Obligations.ThrowAndInject
  refine fun s mask => ⟨decode_argWord .., decode_argWord .., fun hm => ?_, rfl, rfl⟩
  show Host.Outcome.next (if mask = 0 then _ else _) = _
  rw [if_neg hm, ← setWidth_trngBits, ← setWidth_eq_zero_append]
  simp only [State.done, State.ret, State.raiseFatal, State.latchTrng, setWidth_and_errorMask]
  rfl

end Sys2Proof.Machine
end

section
/-! SUPPORT. Counter mode (R327): the pieces of the data under the encrypted counter blocks are one xor with a keystream,
byte by byte. -/

namespace Sys2Proof.Machine

/-- A string that is not empty is cut into its first piece and the pieces of the rest; that piece may be short. -/
theorem chunks_of_ne_nil {n : Nat} (hn : 0 < n) {s : Bytes} (hs : s ≠ []) :
    chunks n s = s.take n :: chunks n (s.drop n) := by
  rcases Nat.le_total n s.length with hl | hl
  · calc chunks n s = chunks n (s.take n ++ s.drop n) := by rw [List.take_append_drop]
      _ = _ := chunks_append n hn _ _ (List.length_take_of_le hl)
  · obtain ⟨b, bs, rfl⟩ := List.exists_cons_of_ne_nil hs
    rw [List.drop_eq_nil_of_le hl]
    cases bs <;> simp [chunks, chunksFuel, List.drop_eq_nil_of_le hl]

theorem xorBytes_eq_mapIdx {a b : Bytes} (h : a.length ≤ b.length) :
    xorBytes a b = a.mapIdx fun j x => x ^^^ b.getD j 0 := by
  refine List.ext_getElem (by simpa using h) fun j hj hj' => ?_
  have hjb : j < b.length := by simp only [List.length_mapIdx] at hj'; omega
  simp [xorBytes, List.getElem?_eq_getElem hjb]

/-- Byte `j` of the keystream from counter value `c`: the counter steps every 16 bytes and wraps at 2^128 (R327). -/
def ctrKeyByte (key : Bytes) (c j : Nat) : Byte := (aesE key (toBE ((c + j / 16) % 2 ^ 128) 16)).getD (j % 16) 0

theorem ctrKeyByte_of_lt (key : Bytes) (c : Nat) {j : Nat} (h : j < 16) :
    ctrKeyByte key c j = (aesE key (toBE (c % 2 ^ 128) 16)).getD j 0 := by
  rw [ctrKeyByte, Nat.div_eq_of_lt h, Nat.mod_eq_of_lt h, Nat.add_zero]

theorem ctrKeyByte_add_block (key : Bytes) (c j : Nat) : ctrKeyByte key c (j + 16) = ctrKeyByte key (c + 1) j := by
  rw [ctrKeyByte, ctrKeyByte, Nat.add_div_right j (by decide), Nat.add_mod_right, Nat.add_right_comm, Nat.add_assoc]

/-- One turn of the loop of R327 uses the first 16 bytes of the keystream. -/
theorem xorBytes_ctrBlock {key : Bytes} (hk : key.length = 16 ∨ key.length = 24 ∨ key.length = 32) (c : Nat) {b : Bytes}
    (hb : b.length ≤ 16) :
    xorBytes b (aesE key (toBE (c % 2 ^ 128) 16)) = b.mapIdx fun j x => x ^^^ ctrKeyByte key c j := by
  rw [xorBytes_eq_mapIdx (by rwa [aesE_length hk (toBE_length _ _)])]
  refine List.ext_getElem (by simp) fun j hj _ => ?_
  have hj16 : j < 16 := by simp only [List.length_mapIdx] at hj; omega
  simp only [List.getElem_mapIdx, ctrKeyByte_of_lt key c hj16]

/-- The loop of R327 xors the data with the keystream. -/
theorem ctrBlocks_chunks {key : Bytes} (hk : key.length = 16 ∨ key.length = 24 ∨ key.length = 32) (c : Nat)
    (data : Bytes) : ctrBlocks key c (chunks 16 data) = data.mapIdx fun j x => x ^^^ ctrKeyByte key c j := by
  induction hn : data.length using Nat.strong_induction_on generalizing c data with
  | _ n ih =>
    by_cases hd : data = []
    · subst hd
      rfl
    · have hpos : 0 < data.length := List.length_pos_iff.mpr hd
      have hrest := ih (data.drop 16).length (by simp only [List.length_drop]; omega) (c + 1) (data.drop 16) rfl
      have hcut : (data.drop 16).mapIdx (fun j x => x ^^^ ctrKeyByte key (c + 1) j) =
          (data.drop 16).mapIdx (fun j x => x ^^^ ctrKeyByte key c (j + (data.take 16).length)) := by
        rcases Nat.le_total 16 data.length with hl | hl
        · simp only [List.length_take_of_le hl, ctrKeyByte_add_block]
        · simp only [List.drop_eq_nil_of_le hl, List.mapIdx_nil]
      calc ctrBlocks key c (chunks 16 data)
          = xorBytes (data.take 16) (aesE key (toBE (c % 2 ^ 128) 16)) ++
              ctrBlocks key (c + 1) (chunks 16 (data.drop 16)) := by
            rw [chunks_of_ne_nil (by decide) hd, ctrBlocks]
        _ = (data.take 16 ++ data.drop 16).mapIdx fun j x => x ^^^ ctrKeyByte key c j := by
            rw [xorBytes_ctrBlock hk c (List.length_take_le ..), hrest, hcut, List.mapIdx_append]
        _ = _ := by rw [List.take_append_drop]

/-- With an open gate and a key of the length its selector names, an AES command runs its body under the lock (R84,
R320). -/
theorem State.aesCommand_open {s : State} {keysize : BitVec 4} (ho : s.cryptoAllowed = true) (hks : keysize.toNat ≤ 2)
    (hkey : s.in0.length = 16 + 8 * keysize.toNat) (body : State → State) :
    s.aesCommand keysize body = { body { s with engineBusy := true } with engineBusy := false } := by
  rw [State.aesCommand, State.withEngine_gated_open ho]
  simp only [aesKeyLen_eq_some.mpr ⟨hks, hkey⟩, if_true]

/-- `AES_CTR` refuses an IV that is not one block, with any key (R327). -/
theorem exec_aesCtr_badIv {s : State} {keysize : BitVec 4} (hiv : s.in1.length ≠ 16) :
    FailsUnlocked (.aesCtr keysize) s := by
  show Host.Outcome.next (s.aesCommand keysize _) = _
  rcases s.aesCommand_cases keysize _ with h | ⟨-, -, h⟩ <;> rw [h]
  · rfl
  · rw [if_neg hiv, State.fail_eq]
    rfl

theorem exec_aesCtr {s : State} {keysize : BitVec 4} (ho : s.cryptoAllowed = true) (hks : keysize.toNat ≤ 2)
    (hkey : s.in0.length = 16 + 8 * keysize.toNat) (hiv : s.in1.length = 16) :
    exec (.aesCtr keysize) s = .next { s with
      engineBusy := false, out0 := aesCtr s.in0 s.in1 s.in2, out1 := [], res := 0 } := by
  show Host.Outcome.next (s.aesCommand keysize _) = _
  rw [State.aesCommand_open ho hks hkey, if_pos hiv, State.answer_eq]
  rfl

/-- Settles O41: the output is the data under the keystream from the counter value of the IV. -/
theorem aesCtrKeystream : Obligations.AesCtrKeystream := by
  unfold Obligations.AesCtrKeystream
  refine ⟨fun s keysize _ hiv => exec_aesCtr_badIv hiv, fun s keysize ho hks hkey hiv => ?_⟩
  have hk : s.in0.length = 16 ∨ s.in0.length = 24 ∨ s.in0.length = 32 := by omega
  have hout : aesCtr s.in0 s.in1 s.in2 = s.in2.mapIdx fun j x => x ^^^ ctrKeyByte s.in0 (be s.in1) j :=
    ctrBlocks_chunks hk (be s.in1) s.in2
  refine ⟨_, exec_aesCtr ho hks hkey hiv, by rw [hout, List.length_mapIdx], fun j hj => ?_⟩
  rw [hout, List.getD_eq_getElem _ _ (by simpa using hj), List.getD_eq_getElem _ _ hj, List.getElem_mapIdx, ctrKeyByte]

end Sys2Proof.Machine
end

section
/-! SUPPORT. `HASH_INIT` and `HMAC_INIT` (R85, R150, R172): the path a selector gives, the context that is made, and the
refusals. -/

namespace Sys2Proof.Machine

/-- The hash hardware is free for slot `i`: no slot holds it, or slot `i` itself does (R85). -/
def State.hwFreeFor (s : State) (i : BitVec 4) : Prop := s.shaHwOwner = none ∨ s.shaHwOwner = some i

theorem State.hwFreeFor_iff {s : State} {i : BitVec 4} :
    s.hwFreeFor i ↔ (if s.shaHwOwner = some i then none else s.shaHwOwner) = none := by
  unfold State.hwFreeFor
  split <;> simp_all

theorem State.not_hwFreeFor {s : State} {i j : BitVec 4} (hj : s.shaHwOwner = some j) (hne : j ≠ i) :
    ¬ s.hwFreeFor i := by
  simp [State.hwFreeFor, hj, hne]

/-- Free hardware goes to the slot, unless the selector is `SW` (R85). -/
theorem State.grabPath_of_free {s : State} {i : BitVec 4} {sel : PathSel} (h : s.hwFreeFor i) (hsel : sel ≠ .sw) :
    s.grabPath i sel = some (.hw, some i) := by
  cases sel with
  | auto => exact if_pos (State.hwFreeFor_iff.mp h)
  | sw => exact absurd rfl hsel
  | hw => exact if_pos (State.hwFreeFor_iff.mp h)

/-- With hardware that another slot holds, selector `HW` alone is refused (R85). -/
theorem State.grabPath_of_held {s : State} {i : BitVec 4} {sel : PathSel} (h : ¬ s.hwFreeFor i) :
    s.grabPath i sel =
      if sel = .hw then none else some (.sw, if s.shaHwOwner = some i then none else s.shaHwOwner) := by
  cases sel with
  | auto => exact if_neg (mt State.hwFreeFor_iff.mpr h)
  | sw => rfl
  | hw => exact if_neg (mt State.hwFreeFor_iff.mpr h)

/-- Slot `i` gets the hardware with the selector bits `path`: the selector is not `SW` and the hardware is free for it. -/
def State.takesHw (s : State) (i : BitVec 4) (path : BitVec 2) : Bool :=
  path ≠ 1 ∧ (s.shaHwOwner = none ∨ s.shaHwOwner = some i)

theorem State.takesHw_iff {s : State} {i : BitVec 4} {path : BitVec 2} :
    s.takesHw i path = true ↔ path ≠ 1 ∧ s.hwFreeFor i := decide_eq_true_iff

theorem pathOfBits_eq_some {path : BitVec 2} (h : path ≠ 3) :
    ∃ sel, pathOfBits path = some sel ∧ (sel = .sw ↔ path = 1) ∧ (sel = .hw ↔ path = 2) := by
  have hlegal : path = 0 ∨ path = 1 ∨ path = 2 := by
    revert path
    decide
  rcases hlegal with rfl | rfl | rfl
  · exact ⟨.auto, rfl, by decide, by decide⟩
  · exact ⟨.sw, rfl, by decide, by decide⟩
  · exact ⟨.hw, rfl, by decide, by decide⟩

/-- The path and the owner after the choice by the selector bits of the command word (R113, R150, R172). -/
theorem State.grabPath_of_bits {s : State} {i : BitVec 4} {path : BitVec 2} (h3 : path ≠ 3)
    (h2 : path = 2 → s.hwFreeFor i) :
    ∃ sel, pathOfBits path = some sel ∧ s.grabPath i sel = some (if s.takesHw i path then .hw else .sw,
      if s.takesHw i path then some i else if s.shaHwOwner = some i then none else s.shaHwOwner) := by
  obtain ⟨sel, hsel, hsw, hhw⟩ := pathOfBits_eq_some h3
  refine ⟨sel, hsel, ?_⟩
  by_cases ht : s.takesHw i path = true
  · obtain ⟨hp, hfree⟩ := State.takesHw_iff.mp ht
    rw [State.grabPath_of_free hfree (mt hsw.mp hp), if_pos ht, if_pos ht]
  · rw [if_neg ht, if_neg ht]
    by_cases hp : path = 1
    · rw [hsw.mpr hp]
      rfl
    · have hheld : ¬ s.hwFreeFor i := fun hfree => ht (State.takesHw_iff.mpr ⟨hp, hfree⟩)
      rw [State.grabPath_of_held hheld, if_neg fun h => hheld (h2 (hhw.mp h))]

/-- With every check passed an init command puts its context into the slot (R150, R172). -/
theorem State.initContext_made {s : State} {alg i : BitVec 4} {path : BitVec 2} {a : HashAlg}
    (ho : s.cryptoAllowed = true) (hi : i.toNat < s.cfg.nCtx) (ha : hashOfTag alg = some a) (h3 : path ≠ 3)
    (h2 : path = 2 → s.hwFreeFor i) (make : HashAlg → HashPath → CtxSlot) :
    s.initContext alg i path make = ({ s with
      shaHwOwner := if s.takesHw i path then some i else if s.shaHwOwner = some i then none else s.shaHwOwner
      }.setCtx i (make a (if s.takesHw i path then .hw else .sw))).ret .ok [] [] := by
  obtain ⟨sel, hsel, hp⟩ := State.grabPath_of_bits h3 h2
  have hslot : s.isCtxSlot i = true := decide_eq_true hi
  simp only [State.initContext, hsel, State.gated_open ho, hslot, ha, hp, State.done_eq]

/-- Selector `HW` with the hardware in another slot (R85). -/
theorem State.initContext_held {s : State} {i j : BitVec 4} (hj : s.shaHwOwner = some j) (hne : j ≠ i)
    (alg : BitVec 4) (make : HashAlg → HashPath → CtxSlot) : s.initContext alg i 2 make = s.ret .fail [] [] := by
  rcases s.initContext_cases alg i 2 make with h | ⟨sel, a, p, owner, hsel, -, -, -, hp, -⟩
  · exact h
  · cases hsel
    rw [State.grabPath_of_held (State.not_hwFreeFor hj hne), if_pos rfl] at hp
    cases hp

/-- The tags that name no hash (R111). -/
theorem hashOfTag_eq_none {alg : BitVec 4} (h : alg = 0 ∨ 5 < alg.toNat) : hashOfTag alg = none := by
  revert alg
  decide

/-- An absent slot, or a tag that names no hash (R150, R172). -/
theorem State.initContext_refused {s : State} {alg i : BitVec 4}
    (hbad : s.cfg.nCtx ≤ i.toNat ∨ alg = 0 ∨ 5 < alg.toNat) (path : BitVec 2) (make : HashAlg → HashPath → CtxSlot) :
    s.initContext alg i path make = s.ret .fail [] [] := by
  rcases s.initContext_cases alg i path make with h | ⟨_, a, _, _, -, ha, -, hi, -, -⟩
  · exact h
  · rw [hashOfTag_eq_none (hbad.resolve_left (Nat.not_le.mpr hi))] at ha
    cases ha

/-- Settles O24: both commands are the frame `initContext`, each with a context of its own. -/
theorem initsMakeContexts : Obligations.InitsMakeContexts := by
  unfold Obligations.InitsMakeContexts
  refine ⟨⟨fun s alg i path a ho hi ha h3 h2 => ?_, fun s alg i j hj hne => ?_⟩,
    fun s alg i path a ho hi ha h3 h2 => ?_, fun s alg i j hj hne => ?_, fun s alg i path hbad => ⟨?_, ?_⟩⟩
  · exact congrArg Host.Outcome.next (State.initContext_made ho hi ha h3 h2 _)
  · exact congrArg Host.Outcome.next (State.initContext_held hj hne alg _)
  · exact congrArg Host.Outcome.next (State.initContext_made ho hi ha h3 h2 _)
  · exact congrArg Host.Outcome.next (State.initContext_held hj hne alg _)
  · exact congrArg Host.Outcome.next (State.initContext_refused hbad path _)
  · exact congrArg Host.Outcome.next (State.initContext_refused hbad path _)

end Sys2Proof.Machine
end

section
/-! SUPPORT. The decoder and the encoder (R110 to R117): a command word is its four fields, an accepted word is the word of the
instruction read, and every row of the opcode table is read as its instruction. -/

namespace Sys2Proof

/-! The fields of a command word (R110) -/

theorem opcOf_commandWord (o : BitVec 8) (a s : BitVec 4) (x : BitVec 16) : opcOf (commandWord o a s x) = o :=
  (BitVec.extractLsb'_append_eq_of_le (by decide)).trans
    ((BitVec.extractLsb'_append_eq_of_le (by decide)).trans BitVec.extractLsb'_append_eq_left)

theorem algOf_commandWord (o : BitVec 8) (a s : BitVec 4) (x : BitVec 16) : algOf (commandWord o a s x) = a :=
  (BitVec.extractLsb'_append_eq_of_le (by decide)).trans
    ((BitVec.extractLsb'_append_eq_of_le (by decide)).trans BitVec.extractLsb'_append_eq_right)

theorem selOf_commandWord (o : BitVec 8) (a s : BitVec 4) (x : BitVec 16) : selOf (commandWord o a s x) = s :=
  (BitVec.extractLsb'_append_eq_of_le (by decide)).trans BitVec.extractLsb'_append_eq_right

theorem argOf_commandWord (o : BitVec 8) (a s : BitVec 4) (x : BitVec 16) : argOf (commandWord o a s x) = x :=
  BitVec.extractLsb'_append_eq_right

theorem commandWord_fields (w : Word) : commandWord (opcOf w) (algOf w) (selOf w) (argOf w) = w := by
  have halg : opcOf w ++ algOf w = w.extractLsb' 20 12 := BitVec.extractLsb'_append_extractLsb'_eq_extractLsb' rfl
  have hsel : w.extractLsb' 20 12 ++ selOf w = w.extractLsb' 16 16 :=
    BitVec.extractLsb'_append_extractLsb'_eq_extractLsb' rfl
  have harg : w.extractLsb' 16 16 ++ argOf w = w.extractLsb' 0 32 :=
    BitVec.extractLsb'_append_extractLsb'_eq_extractLsb' rfl
  rw [commandWord, halg, hsel, harg, BitVec.extractLsb'_eq_self]

theorem decode_commandWord (o : BitVec 8) (a s : BitVec 4) (x : BitVec 16) :
    decode (commandWord o a s x) = decodeFields o a s x := by
  rw [decode, opcOf_commandWord, algOf_commandWord, selOf_commandWord, argOf_commandWord]

theorem commandWord_inj {o o' : BitVec 8} {a a' s s' : BitVec 4} {x x' : BitVec 16} :
    commandWord o a s x = commandWord o' a' s' x' ↔ o = o' ∧ a = a' ∧ s = s' ∧ x = x' := by
  refine ⟨fun h => ⟨?_, ?_, ?_, ?_⟩, fun ⟨ho, ha, hs, hx⟩ => by rw [ho, ha, hs, hx]⟩
  · simpa only [opcOf_commandWord] using congrArg opcOf h
  · simpa only [algOf_commandWord] using congrArg algOf h
  · simpa only [selOf_commandWord] using congrArg selOf h
  · simpa only [argOf_commandWord] using congrArg argOf h

/-! What the two forms accept (R113, R116) -/

theorem zeroFields_eq_ok {z : Bool} {i j : Instr} : zeroFields z i = .ok j ↔ z = true ∧ i = j := by
  cases z <;> simp [zeroFields]

/-- `ARG[15:2]` is 0 exactly where `ARG` is its own path selector, widened. -/
theorem extractLsb'_eq_zero_iff_setWidth {x : BitVec 16} : x.extractLsb' 2 14 = 0 ↔ (x.setWidth 2).setWidth 16 = x := by
  have hlt := x.isLt
  rw [BitVec.toNat_eq, BitVec.toNat_eq, BitVec.extractLsb'_toNat, BitVec.toNat_setWidth, BitVec.toNat_setWidth,
    Nat.shiftRight_eq_div_pow]
  change _ = 0 ↔ _
  omega

theorem and_pathMask_eq_zero_iff {x : BitVec 16} : x &&& 0xfffc = 0 ↔ x.extractLsb' 2 14 = 0 := by
  have hx : x = x.extractLsb' 2 14 ++ x.extractLsb' 0 2 := by
    rw [BitVec.extractLsb'_append_extractLsb'_eq_extractLsb' (by rfl)]
    exact BitVec.extractLsb'_eq_self.symm
  have hand : x &&& 0xfffc = x.extractLsb' 2 14 ++ 0#2 := by
    conv_lhs => rw [hx, show (0xfffc : BitVec 16) = BitVec.allOnes 14 ++ 0#2 from rfl]
    rw [BitVec.and_append, BitVec.and_allOnes, BitVec.and_zero]
  rw [hand]
  exact BitVec.append_left_inj (s₂ := 0#14) 0#2

theorem legalPathForm_eq_ok {x : BitVec 16} {i j : Instr} :
    legalPathForm x i = .ok j ↔ (x.setWidth 2).setWidth 16 = x ∧ legalPath (x.setWidth 2) = true ∧ i = j := by
  rw [← extractLsb'_eq_zero_iff_setWidth, legalPathForm]
  by_cases h0 : x.extractLsb' 2 14 = 0
  · rw [h0]
    cases legalPath (x.setWidth 2) <;> simp
  · simp only [bne_iff_ne, ne_eq, h0, not_false_eq_true, if_true, false_and, reduceCtorEq]

/-! Decode and encode (R110, R115) -/

/-- A legal path selector is read back from `ARG`. -/
theorem legalPathForm_setWidth {path : BitVec 2} (h : legalPath path = true) (mk : BitVec 2 → Instr) :
    legalPathForm (path.setWidth 16) (mk ((path.setWidth 16).setWidth 2)) = .ok (mk path) := by
  have hp : (path.setWidth 16).setWidth 2 = path := by
    rw [BitVec.setWidth_setWidth_of_le _ (by decide), BitVec.setWidth_eq]
  rw [legalPathForm_eq_ok, hp]
  exact ⟨rfl, h, rfl⟩

theorem decode_encode (i : Instr) (h : i.wellFormed = true) : decode (encode i) = .ok i := by
  cases i
  case hashInit alg slot path => exact (decode_commandWord ..).trans (legalPathForm_setWidth h (.hashInit alg slot))
  case hmacInit alg slot path => exact (decode_commandWord ..).trans (legalPathForm_setWidth h (.hmacInit alg slot))
  all_goals exact decode_commandWord ..

/-- Every arm of the opcode map reads the instruction whose word has just these fields (R115). -/
theorem encode_of_decodeFields {o : BitVec 8} {a s : BitVec 4} {x : BitVec 16} {i : Instr}
    (h : decodeFields o a s x = .ok i) : i.wellFormed = true ∧ encode i = commandWord o a s x := by
  unfold decodeFields at h
  split at h
  case h_3 | h_8 =>
    obtain ⟨hx, hpath, rfl⟩ := legalPathForm_eq_ok.mp h
    exact ⟨hpath, by rw [encode, hx]; rfl⟩
  case h_44 => cases h
  all_goals
    obtain ⟨hunused, rfl⟩ := zeroFields_eq_ok.mp h
    simp only [Bool.and_eq_true, beq_iff_eq] at hunused
    refine ⟨rfl, ?_⟩
    simp only [encode, hunused]
    rfl

theorem encode_of_decode {w : Word} {i : Instr} (h : decode w = .ok i) : i.wellFormed = true ∧ encode i = w := by
  simpa only [commandWord_fields] using encode_of_decodeFields h

/-- Settles O1: each field is read back, and every accepted word is the word of what it was read as. -/
theorem decodeEncodeAgree : Obligations.DecodeEncodeAgree := by
  unfold Obligations.DecodeEncodeAgree
  exact ⟨decode_encode, fun _ _ => encode_of_decode⟩

/-! The decoder and the opcode table (R115 to R117) -/

theorem matchesRow (i : Instr) : Laws.MatchesRow.Statement i := by
  cases i
  case equals => exact Laws.MatchesRow.equals ..
  case hwstat => exact Laws.MatchesRow.hwstat
  case hashInit => exact Laws.MatchesRow.hashInit ..
  case hashUpdate => exact Laws.MatchesRow.hashUpdate ..
  case hashFinal => exact Laws.MatchesRow.hashFinal ..
  case hashSize => exact Laws.MatchesRow.hashSize ..
  case hashBlockSize => exact Laws.MatchesRow.hashBlockSize ..
  case hmacInit => exact Laws.MatchesRow.hmacInit ..
  case hmacUpdate => exact Laws.MatchesRow.hmacUpdate ..
  case hmacFinal => exact Laws.MatchesRow.hmacFinal ..
  case hkdf => exact Laws.MatchesRow.hkdf ..
  case trngStartup => exact Laws.MatchesRow.trngStartup
  case trngWord => exact Laws.MatchesRow.trngWord
  case drbgInit => exact Laws.MatchesRow.drbgInit ..
  case drbgReseed => exact Laws.MatchesRow.drbgReseed ..
  case drbgGenerate => exact Laws.MatchesRow.drbgGenerate ..
  case drbgExit => exact Laws.MatchesRow.drbgExit ..
  case drbgInitRfc6979 => exact Laws.MatchesRow.drbgInitRfc6979 ..
  case randBytes => exact Laws.MatchesRow.randBytes ..
  case aesEcbEnc => exact Laws.MatchesRow.aesEcbEnc ..
  case aesEcbDec => exact Laws.MatchesRow.aesEcbDec ..
  case aesCtr => exact Laws.MatchesRow.aesCtr ..
  case aesCbcEnc => exact Laws.MatchesRow.aesCbcEnc ..
  case aesCbcDec => exact Laws.MatchesRow.aesCbcDec ..
  case aesCmac => exact Laws.MatchesRow.aesCmac ..
  case modexpBlinded => exact Laws.MatchesRow.modexpBlinded
  case modexpPub => exact Laws.MatchesRow.modexpPub
  case rsaEncrypt => exact Laws.MatchesRow.rsaEncrypt ..
  case rsaDecrypt => exact Laws.MatchesRow.rsaDecrypt ..
  case rsaSign => exact Laws.MatchesRow.rsaSign ..
  case rsaVerify => exact Laws.MatchesRow.rsaVerify ..
  case p256KeyFromBytes => exact Laws.MatchesRow.p256KeyFromBytes
  case p256BaseMul => exact Laws.MatchesRow.p256BaseMul
  case p256PointMul => exact Laws.MatchesRow.p256PointMul
  case ecdsaSignRaw => exact Laws.MatchesRow.ecdsaSignRaw
  case ecdsaSign => exact Laws.MatchesRow.ecdsaSign ..
  case ecdsaVerify => exact Laws.MatchesRow.ecdsaVerify
  case fipsPowerOn => exact Laws.MatchesRow.fipsPowerOn
  case fipsStatus => exact Laws.MatchesRow.fipsStatus
  case fipsAllowed => exact Laws.MatchesRow.fipsAllowed
  case fipsThrowErr => exact Laws.MatchesRow.fipsThrowErr ..
  case fipsKat => exact Laws.MatchesRow.fipsKat ..
  case fipsInject => exact Laws.MatchesRow.fipsInject ..

/-- `pathThree` by the fields of the word. -/
theorem pathThree_iff (w : Word) : pathThree w ↔ (opcOf w = 0x10 ∨ opcOf w = 0x20) ∧ (argOf w).setWidth 2 = 3 := by
  have hopc (o : BitVec 8) : w >>> 24 = o.setWidth 32 ↔ opcOf w = o := by
    rw [BitVec.toNat_eq, BitVec.toNat_eq, opcOf]
    simp only [BitVec.toNat_ushiftRight, BitVec.extractLsb'_toNat, BitVec.toNat_setWidth, Nat.shiftRight_eq_div_pow]
    omega
  have harg : w &&& 3 = 3 ↔ (argOf w).setWidth 2 = 3 := by
    have hlow : (3 : BitVec 2).toNat = 3 := rfl
    rw [BitVec.toNat_eq, BitVec.toNat_eq, argOf, BitVec.toNat_and, show (3 : Word).toNat = 2 ^ 2 - 1 from rfl,
      Nat.and_two_pow_sub_one_eq_mod, hlow]
    simp only [BitVec.extractLsb'_toNat, BitVec.toNat_setWidth, Nat.shiftRight_zero]
    omega
  exact and_congr (or_congr (hopc 0x10) (hopc 0x20)) harg

theorem not_pathThree_encode {i : Instr} (h : i.wellFormed = true) : ¬ pathThree (encode i) := by
  rw [pathThree_iff]
  rintro ⟨hopc, harg⟩
  cases i
  case hashInit alg slot path | hmacInit alg slot path =>
    rw [encode, argOf_commandWord, BitVec.setWidth_setWidth_of_le _ (by decide), BitVec.setWidth_eq] at harg
    rw [harg] at h
    cases h
  all_goals
    rw [encode, opcOf_commandWord] at hopc
    revert hopc
    decide

/-- The part of a field that a mask leaves free, where the mask tests the whole field or nothing of it. -/
def freeField {n : Nat} (mask v : BitVec n) : BitVec n := if mask = 0 then v else 0

theorem freeField_eq_self {n : Nat} {mask v : BitVec n} (hm : mask = 0 ∨ mask = BitVec.allOnes n) (hv : v &&& mask = 0) :
    freeField mask v = v := by
  rcases hm with rfl | rfl
  · exact if_pos rfl
  · rw [BitVec.and_allOnes] at hv
    rw [hv, freeField, ite_self]

/-- A row that tests the opcode and each other field wholly or not at all, and wants 0 in what it tests besides the opcode:
every row but those with a path selector (R111 to R113). -/
structure OpcodeRow.TestsWholeFields (row : OpcodeRow) : Prop where
  opc : opcOf row.mask = BitVec.allOnes 8
  alg : algOf row.mask = 0 ∨ algOf row.mask = BitVec.allOnes 4
  sel : selOf row.mask = 0 ∨ selOf row.mask = BitVec.allOnes 4
  arg : argOf row.mask = 0 ∨ argOf row.mask = BitVec.allOnes 16
  bits : row.bits = commandWord (opcOf row.bits) 0 0 0

/-- A word matches a row exactly where its fields do (R117). -/
theorem and_mask_eq_iff {w m : Word} {o : BitVec 8} (hm : opcOf m = BitVec.allOnes 8) :
    w &&& m = commandWord o 0 0 0 ↔
      opcOf w = o ∧ algOf w &&& algOf m = 0 ∧ selOf w &&& selOf m = 0 ∧ argOf w &&& argOf m = 0 := by
  conv_lhs => rw [← commandWord_fields w, ← commandWord_fields m, commandWord_and, commandWord_inj, hm,
    BitVec.and_allOnes]

/-- Every word that matches the row is read as the row's instruction, path selector 3 apart (R117). -/
def OpcodeRow.Reads (row : OpcodeRow) : Prop :=
  ∀ w : Word, w &&& row.mask = row.bits → ¬ pathThree w → ∃ i, decode w = .ok i ∧ i.mnemonic = row.mnemonic

theorem OpcodeRow.TestsWholeFields.reads {row : OpcodeRow} (hrow : row.TestsWholeFields)
    (h : ∀ a s x, ∃ i, decodeFields (opcOf row.bits) (freeField (algOf row.mask) a) (freeField (selOf row.mask) s)
      (freeField (argOf row.mask) x) = .ok i ∧ i.mnemonic = row.mnemonic) : row.Reads := by
  intro w hw _
  rw [hrow.bits, and_mask_eq_iff hrow.opc] at hw
  obtain ⟨ho, ha, hs, hx⟩ := hw
  have hi := h (algOf w) (selOf w) (argOf w)
  rwa [freeField_eq_self hrow.alg ha, freeField_eq_self hrow.sel hs, freeField_eq_self hrow.arg hx, ← ho] at hi

/-- The two rows with a path selector: what their mask lets through is legal unless the selector is 3 (R113, R116). -/
theorem OpcodeRow.reads_of_path {name : String} {o : BitVec 8} {mk : BitVec 4 → BitVec 4 → BitVec 2 → Instr}
    (ho : o = 0x10 ∨ o = 0x20)
    (hd : ∀ a s x, decodeFields o a s x = legalPathForm x (mk a s (x.setWidth 2)))
    (hn : ∀ a s path, (mk a s path).mnemonic = name) :
    (⟨name, 0xFF00FFFC, commandWord o 0 0 0⟩ : OpcodeRow).Reads := by
  intro w hw hpath
  obtain ⟨rfl, -, -, hx⟩ := (and_mask_eq_iff (m := 0xFF00FFFC) rfl).mp hw
  have hsel : legalPath ((argOf w).setWidth 2) = true := by
    rw [legalPath, bne_iff_ne]
    exact fun h3 => hpath ((pathThree_iff w).mpr ⟨ho, h3⟩)
  have hzero := extractLsb'_eq_zero_iff_setWidth.mp (and_pathMask_eq_zero_iff.mp hx)
  exact ⟨_, (hd ..).trans (legalPathForm_eq_ok.mpr ⟨hzero, hsel, rfl⟩), hn ..⟩

theorem opcodeRows_reads : ∀ row ∈ opcodeRows, row.Reads := by
  have hash : (⟨"HASH_INIT", 0xFF00FFFC, 0x10000000⟩ : OpcodeRow).Reads :=
    OpcodeRow.reads_of_path (mk := .hashInit) (.inl rfl) (fun _ _ _ => rfl) fun _ _ _ => rfl
  have hmac : (⟨"HMAC_INIT", 0xFF00FFFC, 0x20000000⟩ : OpcodeRow).Reads :=
    OpcodeRow.reads_of_path (mk := .hmacInit) (.inr rfl) (fun _ _ _ => rfl) fun _ _ _ => rfl
  simp only [opcodeRows, List.forall_mem_append, List.forall_mem_cons, List.not_mem_nil, IsEmpty.forall_iff, implies_true,
    and_true, and_assoc]
  refine ⟨?_, ?_, hash, ?_, ?_, ?_, ?_, hmac, ?_⟩
  all_goals
    and_intros
    all_goals
      refine OpcodeRow.TestsWholeFields.reads ?_ ?_
      · exact ⟨rfl, by decide, by decide, by decide, rfl⟩
      · exact fun _ _ _ => ⟨_, rfl, rfl⟩

/-- Settles O2: a word that is read is its instruction's word, which matches the instruction's row; and every row is read. -/
theorem decodeMatchesOpcodeTable : Obligations.DecodeMatchesOpcodeTable := by
  unfold Obligations.DecodeMatchesOpcodeTable
  refine ⟨fun w i h => ?_, fun w row hrow hw hpath => opcodeRows_reads row hrow w hw hpath⟩
  obtain ⟨hwf, rfl⟩ := encode_of_decode h
  obtain ⟨row, hrow, hname, hmatch⟩ := matchesRow i
  exact ⟨not_pathThree_encode hwf, row, hrow, hmatch, hname⟩

/-- Settles O3: one word after another, through the decoder. -/
theorem exampleWordsDecode : Obligations.ExampleWordsDecode := by
  unfold Obligations.ExampleWordsDecode
  refine ⟨?_, ?_, ?_, ?_, ?_, ?_, ?_, ?_, ?_, ?_⟩
  all_goals decide

end Sys2Proof

namespace Sys2Proof.Machine

/-! Illegal words (R116) -/

theorem State.execute_illegal {s : State} {e : DecodeError} (h : decode s.cmd = .error e) : s.execute = .next s.fail := by
  rw [State.execute, h]

/-- A command whose ports fit is executed on the state with the ports written and the command taken off (R83, R403). -/
theorem step_command {s : State} {w : Word} {a b c d : Bytes} {rest : List Event}
    (h : s.env.schedule = .command w a b c d :: rest) (hfit : portsFit s.cfg.maxBuf a b c d = true) :
    step s = ((s.withSchedule rest).issue w a b c d).execute := by
  simp only [step, h, hfit, if_true]

/-- Settles O5: the ports fit, and the word in `CMD` does not decode. -/
theorem illegalWordFails : Obligations.IllegalWordFails := by
  unfold Obligations.IllegalWordFails
  intro s w a b c d rest e hs ha hb hc hd hw
  have hfit : portsFit s.cfg.maxBuf a b c d = true := by simp [portsFit, ha, hb, hc, hd]
  exact (step_command hs hfit).trans (State.execute_illegal hw)

end Sys2Proof.Machine
end

section
/-! SUPPORT. Slots that a command does not name (R156, R223): no elementary change of the command writes them, nor the owner of
the hash hardware where the command names no context slot. -/

namespace Sys2Proof.Machine

/-- What the command `i` leaves of the slot files: every context slot and every DRBG slot that it does not name, and the owner of
the hash hardware where it names no context slot. -/
structure State.SameOtherSlots (i : Instr) (s t : State) : Prop where
  ctx : ∀ j, i.ctxSlot ≠ some j → t.ctxAt j = s.ctxAt j
  drbg : ∀ g, i.drbgSlot ≠ some g → t.drbgAt g = s.drbgAt g
  owner : i.ctxSlot = none → t.shaHwOwner = s.shaHwOwner

theorem State.SameOtherSlots.refl (i : Instr) (s : State) : State.SameOtherSlots i s s :=
  ⟨fun _ _ => rfl, fun _ _ => rfl, fun _ => rfl⟩

/-- A write of the context slot that the command names, whatever becomes of the owner. -/
theorem State.SameOtherSlots.writeCtx {i : Instr} {s t u : State} {j : BitVec 4} (hs : State.SameOtherSlots i s t)
    (hi : i.ctxSlot = some j) (hctx : ∀ k, k ≠ j → u.ctxAt k = t.ctxAt k) (hdrbg : ∀ g, u.drbgAt g = t.drbgAt g) :
    State.SameOtherSlots i s u where
  ctx k hk := (hctx k fun hkj => hk (hi.trans (congrArg some hkj.symm))).trans (hs.ctx k hk)
  drbg g hg := (hdrbg g).trans (hs.drbg g hg)
  owner hnone := by cases hi.symm.trans hnone

/-- A write of the DRBG slot that the command names. -/
theorem State.SameOtherSlots.setDrbg {i : Instr} {s t : State} {g : BitVec 4} (hs : State.SameOtherSlots i s t)
    (hi : i.drbgSlot = some g) (d : Drbg) : State.SameOtherSlots i s (t.setDrbg g d) where
  ctx := hs.ctx
  drbg k hk := (t.drbgAt_setDrbg_ne d fun hkg => hk (hi.trans (congrArg some hkg.symm))).trans (hs.drbg k hk)
  owner := hs.owner

theorem Op.keeps_otherSlots {i : Instr} {s t u : State} (h : Op i t u) (hs : State.SameOtherSlots i s t) :
    State.SameOtherSlots i s u := by
  cases h with
  | init hi => exact hs.writeCtx hi (fun _ hk => State.ctxAt_setCtx_ne _ _ hk) fun _ => rfl
  | update hi => exact hs.writeCtx hi (fun _ hk => t.ctxAt_setCtx_ne _ hk) fun _ => rfl
  | finish hi =>
    refine hs.writeCtx hi (fun k hk => ?_) fun g => State.releaseAfter_keeps (P := fun v => v.drbgAt g = t.drbgAt g) rfl rfl
    rw [State.releaseAfter_ctxAt, t.ctxAt_setCtx_ne _ hk]
  | instantiate hi => exact hs.setDrbg hi _
  | reseed hi => exact hs.setDrbg hi _
  | produce hi => exact hs.setDrbg hi _
  | erase hi => exact hs.setDrbg hi _
  | draws _ hf => exact hf.keeps (P := State.SameOtherSlots i s) ⟨hs.ctx, hs.drbg, hs.owner⟩
  | startup => exact t.trngStartup_frame.keeps (P := State.SameOtherSlots i s) ⟨hs.ctx, hs.drbg, hs.owner⟩
  | word => exact t.trngWord_frame.keeps (P := State.SameOtherSlots i s) ⟨hs.ctx, hs.drbg, hs.owner⟩
  | _ => exact ⟨hs.ctx, hs.drbg, hs.owner⟩

/-- Settles O20: an elementary change that writes a slot or the owner is one of a command that names the slot. -/
theorem otherSlotsUnchanged : Obligations.OtherSlotsUnchanged := by
  unfold Obligations.OtherSlotsUnchanged
  intro i s t h
  have hsame := (exec_runs i s t h).keeps (P := State.SameOtherSlots i s) (fun ho hs => ho.keeps_otherSlots hs)
    (fun _ hs => ⟨hs.ctx, hs.drbg, hs.owner⟩) (.refl i s)
  exact ⟨hsame.ctx, hsame.drbg, hsame.owner⟩

end Sys2Proof.Machine
end

section
/-! SUPPORT. Updates and `FINAL` on a live context (R151, R152, R173, R174), the size queries (R153, R154), and that a streamed
digest is the digest of the whole message (R148, R149). -/

namespace Sys2Proof.Machine

/-! What `UPDATE` and `FINAL` answer -/

/-- `update` is the command that lets a context of the kind `kind` in slot `i` absorb `IN0` (R151, R173). -/
def AbsorbsInto (update : Instr) (i : BitVec 4) (kind : HashCtx → CtxSlot) : Prop :=
  ∀ (s : State) (c : HashCtx), s.cryptoAllowed = true → s.isCtxSlot i = true → s.ctxAt i = kind c →
    c.canAbsorb s.in0 = true → exec update s = .next ((s.setCtx i (kind (c.absorb s.in0))).ret .ok [] [])

theorem hashUpdate_absorbsInto (i : BitVec 4) : AbsorbsInto (.hashUpdate i) i .hash := by
  intro s c ho hi hc hab
  show Host.Outcome.next (s.gated _) = _
  simp only [State.gated_open ho, hi, hc, hab, if_true, State.done_eq]

theorem hmacUpdate_absorbsInto (i : BitVec 4) (okey : Bytes) : AbsorbsInto (.hmacUpdate i) i (.hmac · okey) := by
  intro s c ho hi hc hab
  show Host.Outcome.next (s.gated _) = _
  simp only [State.gated_open ho, hi, hc, hab, if_true, State.done_eq]

section Finals

variable {s : State} {i : BitVec 4} (ho : s.cryptoAllowed = true) (hi : s.isCtxSlot i = true)

include ho hi

theorem exec_hashFinal_active {c : HashCtx} (hc : s.ctxAt i = .hash c) (hp : c.phase = .active) :
    exec (.hashFinal i) s = .next
      (((s.setCtx i (.hash (c.finalize c.finishDigest))).releaseAfter c.path).ret .ok c.finishDigest []) := by
  show Host.Outcome.next (s.gated _) = _
  simp only [State.gated_open ho, hi, hc, hp, State.answer_eq]

theorem exec_hashFinal_finalized {c : HashCtx} (hc : s.ctxAt i = .hash c) (hp : c.phase = .finalized) :
    exec (.hashFinal i) s = .next (s.ret .ok c.digest []) := by
  show Host.Outcome.next (s.gated _) = _
  simp only [State.gated_open ho, hi, hc, hp, State.answer_eq]

theorem exec_hmacFinal_active {c : HashCtx} {okey : Bytes} (hc : s.ctxAt i = .hmac c okey) (hp : c.phase = .active) :
    exec (.hmacFinal i) s = .next
      (((s.setCtx i (.hmac (c.finalize (c.finishTag okey)) (zeros c.alg.blockBytes))).releaseAfter c.path).ret .ok
        (c.finishTag okey) []) := by
  show Host.Outcome.next (if s.cryptoAllowed then _ else _) = _
  simp only [ho, if_true, hi, hc, hp, State.answer_eq]

theorem exec_hmacFinal_finalized {c : HashCtx} {okey : Bytes} (hc : s.ctxAt i = .hmac c okey)
    (hp : c.phase = .finalized) : exec (.hmacFinal i) s = .next (s.ret .ok c.digest []) := by
  show Host.Outcome.next (if s.cryptoAllowed then _ else _) = _
  simp only [ho, if_true, hi, hc, hp, State.answer_eq]

end Finals

/-! `UPDATE` (R151, R173) -/

theorem HashCtx.absorb_eq {c : HashCtx} {data : Bytes} {blocks : List Bytes}
    (h : (c.absorb data).h = blocks.foldl compress c.h) :
    c.absorb data = { c with
      h := blocks.foldl compress c.h, buf := (c.absorb data).buf, count := c.count + data.length } := by
  rw [← h]
  rfl

/-- Settles O25: the blocks and the remainder are those of `HashCtx.absorb_spec`. -/
theorem updatesAbsorbInput : Obligations.UpdatesAbsorbInput := by
  unfold Obligations.UpdatesAbsorbInput
  intro s i c ho hi hp hlen
  obtain ⟨blocks, hsplit, hblocks, hrest, hwords⟩ := c.absorb_spec s.in0
  have hslot : s.isCtxSlot i = true := decide_eq_true hi
  have hab : c.canAbsorb s.in0 = true := (c.canAbsorb_iff s.in0).mpr ⟨hp, hlen⟩
  refine ⟨blocks, (c.absorb s.in0).buf, hsplit, hblocks, hrest, ?_⟩
  rw [← HashCtx.absorb_eq hwords]
  exact ⟨fun hc => hashUpdate_absorbsInto i s c ho hslot hc hab,
    fun okey hc => hmacUpdate_absorbsInto i okey s c ho hslot hc hab⟩

/-! `FINAL` (R152, R174) -/

theorem State.releaseAfter_eq (s : State) (p : HashPath) :
    s.releaseAfter p = { s with shaHwOwner := if p = .hw then none else s.shaHwOwner } := by
  unfold State.releaseAfter
  split <;> rfl

/-- Settles O27: each `FINAL` by the phase of its context. -/
theorem finalsAnswerDigests : Obligations.FinalsAnswerDigests := by
  unfold Obligations.FinalsAnswerDigests
  refine ⟨⟨fun s i c ho hi hc hp => ?_, fun s i c ho hi hc hp => ?_⟩,
    fun s i c okey ho hi hc hp => ?_, fun s i c okey ho hi hc hp => ?_⟩
  all_goals have hslot : s.isCtxSlot i = true := decide_eq_true hi
  · rw [exec_hashFinal_active ho hslot hc hp, State.releaseAfter_eq]
    rfl
  · exact exec_hashFinal_finalized ho hslot hc hp
  · rw [exec_hmacFinal_active ho hslot hc hp, State.releaseAfter_eq]
    rfl
  · exact exec_hmacFinal_finalized ho hslot hc hp

/-! The sizes of the tags (R141, R153, R154) -/

theorem digestSize_word (alg : BitVec 4) : toLE ((hashOfTag alg).elim 0 HashAlg.digestBytes) 4 =
    [([0, 20, 28, 32, 48, 64] : List Byte).getD alg.toNat 0, 0, 0, 0] := by
  revert alg
  decide

theorem blockSize_word (alg : BitVec 4) : toLE ((hashOfTag alg).elim 0 HashAlg.blockBytes) 4 =
    [([0, 64, 64, 64, 128, 128] : List Byte).getD alg.toNat 0, 0, 0, 0] := by
  revert alg
  decide

/-- Settles O28: the words by their fields, the answers by the tables of sizes. -/
theorem hashSizesAnswered : Obligations.HashSizesAnswered := by
  unfold Obligations.HashSizesAnswered
  intro s alg
  refine ⟨decode_commandWord .., ?_, decode_commandWord .., ?_⟩
  · rw [← digestSize_word]
    rfl
  · rw [← blockSize_word]
    rfl

/-! Streaming (R148, R149) -/

/-- An active context that has absorbed the bytes `m`: whole blocks of `m` are compressed, its remainder is pending. -/
structure HashCtx.HasAbsorbed (c : HashCtx) (m : Bytes) : Prop where
  active : c.phase = .active
  count : c.count = m.length
  words : ∃ blocks : List Bytes, m = blocks.flatten ++ c.buf ∧ (∀ b ∈ blocks, b.length = c.alg.blockBytes) ∧
    c.h = blocks.foldl compress c.alg.iv

theorem HashCtx.fresh_hasAbsorbed (a : HashAlg) (p : HashPath) : (HashCtx.fresh a p).HasAbsorbed [] :=
  ⟨rfl, rfl, [], rfl, by simp, rfl⟩

theorem HashCtx.HasAbsorbed.absorb {c : HashCtx} {m : Bytes} (h : c.HasAbsorbed m) (data : Bytes) :
    (c.absorb data).HasAbsorbed (m ++ data) where
  active := h.active
  count := by rw [HashCtx.absorb_count, h.count, List.length_append]
  words := by
    obtain ⟨old, hm, hold, hwords⟩ := h.words
    obtain ⟨new, hsplit, hnew, -, hwords'⟩ := c.absorb_spec data
    refine ⟨old ++ new, ?_, ?_, ?_⟩
    · rw [hm, List.append_assoc, hsplit, List.flatten_append, List.append_assoc]
    · simpa only [List.forall_mem_append] using ⟨hold, hnew⟩
    · rw [hwords', hwords, List.foldl_append]
      rfl

/-- Finishing a context gives the digest of what it has absorbed, however that was split (R148). -/
theorem HashCtx.HasAbsorbed.finishDigest {c : HashCtx} {m : Bytes} (h : c.HasAbsorbed m) :
    c.finishDigest = hash c.alg m := by
  obtain ⟨blocks, hm, hblocks, hwords⟩ := h.words
  have hchunks : chunks c.alg.blockBytes (m ++ hashPadding c.alg m.length) =
      blocks ++ chunks c.alg.blockBytes (c.buf ++ hashPadding c.alg c.count) := by
    rw [h.count, ← chunks_flatten_append _ c.alg.blockBytes_pos _ _ hblocks, ← List.append_assoc, ← hm]
  rw [HashCtx.finishDigest, HashCtx.finishWords, hash, hchunks, List.foldl_append, hwords]

/-- Slot `i` streams: the gate is open and the slot holds, in a slot value of the kind `kind`, a context of the algorithm `a` that
has absorbed `m`. -/
structure State.Streams (s : State) (i : BitVec 4) (kind : HashCtx → CtxSlot) (a : HashAlg) (m : Bytes) : Prop where
  gateOpen : s.cryptoAllowed = true
  slot : s.isCtxSlot i = true
  context : ∃ c, s.ctxAt i = kind c ∧ c.alg = a ∧ c.HasAbsorbed m

section Streaming

variable {s : State} {i : BitVec 4} {kind : HashCtx → CtxSlot} {a : HashAlg} {m : Bytes} {upd : Instr}

/-- One update within the bound of R155. -/
theorem State.Streams.update (h : s.Streams i kind a m) (hupd : AbsorbsInto upd i kind) {data : Bytes}
    (hlen : (m ++ data).length < 2 ^ 61) :
    ∃ t, exec upd { s with in0 := data } = .next t ∧ t.res = 0 ∧ t.Streams i kind a (m ++ data) := by
  obtain ⟨c, hc, halg, hm⟩ := h.context
  have hab : c.canAbsorb data = true :=
    (c.canAbsorb_iff data).mpr ⟨hm.active, by rwa [hm.count, ← List.length_append]⟩
  exact ⟨_, hupd { s with in0 := data } c h.gateOpen h.slot hc hab, rfl, h.gateOpen, h.slot, c.absorb data,
    State.ctxAt_setCtx_self .., halg, hm.absorb data⟩

/-- Updates with the pieces of a message, one after another. -/
theorem State.Streams.afterUpdates (hupd : AbsorbsInto upd i kind) {ms : List Bytes} (h : s.Streams i kind a m)
    (hlen : (m ++ ms.flatten).length < 2 ^ 61) :
    ∃ u, State.afterUpdates upd ms s = some u ∧ u.Streams i kind a (m ++ ms.flatten) := by
  induction ms generalizing s m with
  | nil => exact ⟨s, rfl, by rwa [List.flatten_nil, List.append_nil]⟩
  | cons data ms ih =>
    rw [List.flatten_cons, ← List.append_assoc] at hlen ⊢
    have hdata : (m ++ data).length < 2 ^ 61 :=
      Nat.lt_of_le_of_lt (List.sublist_append_left _ _).length_le hlen
    obtain ⟨t, hexec, hres, ht⟩ := h.update hupd hdata
    obtain ⟨u, hu, hstreams⟩ := ih ht hlen
    refine ⟨u, ?_, hstreams⟩
    rw [State.afterUpdates, hexec]
    exact (if_pos hres).trans hu

end Streaming

theorem State.Streams.hashInit {s : State} {alg i : BitVec 4} {path : BitVec 2} {a : HashAlg}
    (ho : s.cryptoAllowed = true) (hi : i.toNat < s.cfg.nCtx) (ha : hashOfTag alg = some a) (h3 : path ≠ 3)
    (h2 : path = 2 → s.hwFreeFor i) :
    ∃ t, exec (.hashInit alg i path) s = .next t ∧ t.res = 0 ∧ t.Streams i .hash a [] :=
  ⟨_, congrArg Host.Outcome.next (State.initContext_made ho hi ha h3 h2 _), rfl, ho, decide_eq_true hi, _,
    State.ctxAt_setCtx_self .., rfl, HashCtx.fresh_hasAbsorbed ..⟩

theorem State.Streams.hashFinal {s : State} {i : BitVec 4} {a : HashAlg} {m : Bytes} (h : s.Streams i .hash a m) :
    ∃ v, exec (.hashFinal i) s = .next v ∧ v.res = 0 ∧ v.out0 = hash a m := by
  obtain ⟨c, hc, rfl, hm⟩ := h.context
  exact ⟨_, exec_hashFinal_active h.gateOpen h.slot hc hm.active, rfl, hm.finishDigest⟩

/-- Settles O29: by induction on the pieces, the slot streams the message they make up, and `FINAL` answers its digest. -/
theorem streamedHashIsHash : Obligations.StreamedHashIsHash := by
  unfold Obligations.StreamedHashIsHash
  intro s alg i path a ms ho hi ha h3 h2 hlen
  obtain ⟨t, hinit, hres, ht⟩ := State.Streams.hashInit ho hi ha h3 h2
  obtain ⟨u, hupd, hu⟩ := ht.afterUpdates (hashUpdate_absorbsInto i) hlen
  obtain ⟨v, hfin, hres', hout⟩ := hu.hashFinal
  exact ⟨t, u, v, hinit, hres, hupd, hfin, hres', hout⟩

end Sys2Proof.Machine
end

section
/-! SUPPORT. The key block (R170), that a streamed tag is the HMAC of the whole message and takes the key block with it (R171 to
R174), and HKDF as the concatenation of its blocks (R176). -/

namespace Sys2Proof.Machine

/-! The key block (R170) -/

theorem hmacKeyBlock_of_long {a : HashAlg} {key : Bytes} (h : a.blockBytes < key.length) :
    hmacKeyBlock a key = hash a key ++ zeros (a.blockBytes - a.digestBytes) := if_pos h

theorem hmacKeyBlock_of_le {a : HashAlg} {key : Bytes} (h : key.length ≤ a.blockBytes) :
    hmacKeyBlock a key = key ++ zeros (a.blockBytes - key.length) := if_neg (Nat.not_lt.mpr h)

/-- Settles O31: one block as it is and the empty key are the case without hashing, with no padding and with padding alone. -/
theorem keyBlockIsOneBlock : Obligations.KeyBlockIsOneBlock := by
  unfold Obligations.KeyBlockIsOneBlock
  refine fun a key => ⟨hmacKeyBlock_of_long, hmacKeyBlock_of_le, fun h => ?_, ?_, hmacKeyBlock_length a key⟩
  · rw [hmacKeyBlock_of_le h.le, h, Nat.sub_self]
    exact List.append_nil key
  · exact hmacKeyBlock_of_le (Nat.zero_le _)

/-! Streaming (R171 to R174) -/

/-- A context that `HMAC_INIT` makes has absorbed one block, the inner-padded key block (R172). -/
theorem hmacFresh_hasAbsorbed (key : Bytes) (a : HashAlg) (p : HashPath) :
    ∃ c, hmacFresh key a p = .hmac c (hmacKeyBlock a key) ∧ c.alg = a ∧
      c.HasAbsorbed (xorByte ipad (hmacKeyBlock a key)) := by
  have hlen : (xorByte ipad (hmacKeyBlock a key)).length = a.blockBytes := by simp
  refine ⟨_, rfl, rfl, rfl, hlen.symm, [xorByte ipad (hmacKeyBlock a key)], ?_,
    List.forall_mem_singleton.mpr hlen, rfl⟩
  simp [HashCtx.fresh]

/-- The tag over a context that has absorbed the inner-padded key block and then `m` (R171, R174). -/
theorem HashCtx.HasAbsorbed.finishTag {c : HashCtx} {key m : Bytes}
    (h : c.HasAbsorbed (xorByte ipad (hmacKeyBlock c.alg key) ++ m)) :
    c.finishTag (hmacKeyBlock c.alg key) = hmac c.alg key m := by
  rw [HashCtx.finishTag, h.finishDigest, hmac]

theorem State.Streams.hmacInit {s : State} {alg i : BitVec 4} {path : BitVec 2} {a : HashAlg}
    (ho : s.cryptoAllowed = true) (hi : i.toNat < s.cfg.nCtx) (ha : hashOfTag alg = some a) (h3 : path ≠ 3)
    (h2 : path = 2 → s.hwFreeFor i) :
    ∃ t, exec (.hmacInit alg i path) s = .next t ∧ t.res = 0 ∧
      t.Streams i (.hmac · (hmacKeyBlock a s.in0)) a (xorByte ipad (hmacKeyBlock a s.in0)) := by
  obtain ⟨c, hmade, halg, hm⟩ := hmacFresh_hasAbsorbed s.in0 a (if s.takesHw i path then .hw else .sw)
  exact ⟨_, congrArg Host.Outcome.next (State.initContext_made ho hi ha h3 h2 _), rfl, ho, decide_eq_true hi, c,
    (State.ctxAt_setCtx_self ..).trans hmade, halg, hm⟩

/-- `HMAC_FINAL` answers the tag of the message and leaves zeros for the key block (R174). -/
theorem State.Streams.hmacFinal {s : State} {i : BitVec 4} {a : HashAlg} {key m : Bytes}
    (h : s.Streams i (.hmac · (hmacKeyBlock a key)) a (xorByte ipad (hmacKeyBlock a key) ++ m)) :
    ∃ v, exec (.hmacFinal i) s = .next v ∧ v.res = 0 ∧ v.out0 = hmac a key m ∧
      ∃ c, v.ctxAt i = .hmac c (zeros a.blockBytes) := by
  obtain ⟨c, hc, rfl, hm⟩ := h.context
  refine ⟨_, exec_hmacFinal_active h.gateOpen h.slot hc hm.active, rfl, hm.finishTag,
    c.finalize (c.finishTag (hmacKeyBlock c.alg key)), ?_⟩
  rw [State.ret_ctxAt, State.releaseAfter_ctxAt, State.ctxAt_setCtx_self]

/-- Settles O30: the slot streams the inner-padded key block and then the pieces, and `FINAL` answers the tag of what they make
up. -/
theorem streamedHmacIsHmac : Obligations.StreamedHmacIsHmac := by
  unfold Obligations.StreamedHmacIsHmac
  intro s alg i path a ms ho hi ha h3 h2 hlen
  obtain ⟨t, hinit, hres, ht⟩ := State.Streams.hmacInit ho hi ha h3 h2
  have hbound : (xorByte ipad (hmacKeyBlock a s.in0) ++ ms.flatten).length < 2 ^ 61 := by
    rwa [List.length_append, xorByte_length, hmacKeyBlock_length]
  obtain ⟨u, hupd, hu⟩ := ht.afterUpdates (hmacUpdate_absorbsInto i _) hbound
  obtain ⟨v, hfin, hres', hout, hkey⟩ := hu.hmacFinal
  exact ⟨t, u, v, hinit, hres, hupd, hfin, hres', hout, hkey⟩

/-! HKDF (R176) -/

/-- The expand loop entered with `T(i)` makes `T(i+1)`, `T(i+2)`, and so on. -/
theorem hkdfExpand_eq (prk info : Bytes) (n i : Nat) :
    hkdfExpand prk info n (i + 1) (hkdfBlock prk info i) =
      (List.range n).flatMap fun j => hkdfBlock prk info (i + j + 1) := by
  induction n generalizing i with
  | zero => rfl
  | succ n ih =>
    have hnext : hkdfExpand prk info (n + 1) (i + 1) (hkdfBlock prk info i) =
        hkdfBlock prk info (i + 1) ++ hkdfExpand prk info n (i + 1 + 1) (hkdfBlock prk info (i + 1)) := rfl
    rw [hnext, ih, List.range_succ_eq_map, List.flatMap_cons, List.flatMap_map]
    simp only [Nat.add_zero, Nat.succ_eq_add_one, Nat.add_assoc, Nat.add_comm 1]

theorem hkdfExpand_length (prk info : Bytes) (n i : Nat) (t : Bytes) : (hkdfExpand prk info n i t).length = 32 * n := by
  induction n generalizing i t with
  | zero => rfl
  | succ n ih =>
    rw [hkdfExpand, List.length_append, ih, hmac_length, HashAlg.digestBytes]
    omega

theorem hkdf_length (salt ikm info : Bytes) (len : Nat) : (hkdf salt ikm info len).length = len := by
  rw [hkdf, List.length_take, hkdfExpand_length]
  omega

theorem hkdf_eq (salt ikm info : Bytes) (len : Nat) :
    hkdf salt ikm info len = ((List.range ((len + 31) / 32)).flatMap fun j =>
      hkdfBlock (hmac .sha256 salt ikm) info (j + 1)).take len := by
  have hloop := hkdfExpand_eq (hmac .sha256 salt ikm) info ((len + 31) / 32) 0
  simp only [Nat.zero_add] at hloop
  exact congrArg (List.take len) hloop

theorem exec_hkdf_answers {s : State} {len : BitVec 16} (ho : s.cryptoAllowed = true) (hlen : len.toNat ≤ 8160)
    (hbuf : len.toNat ≤ s.cfg.maxBuf) :
    exec (.hkdf 3 len) s = .next (s.ret .ok (hkdf s.in0 s.in1 s.in2 len.toNat) []) := by
  show Host.Outcome.next (s.gated _) = _
  rw [State.gated_open ho, if_neg (by simpa using ⟨hlen, hbuf⟩), State.answer_eq]

/-- The refusals of R176; a closed gate refuses as well. -/
theorem exec_hkdf_refused {s : State} {alg : BitVec 4} {len : BitVec 16}
    (hbad : alg ≠ 3 ∨ 8160 < len.toNat ∨ s.cfg.maxBuf < len.toNat) :
    exec (.hkdf alg len) s = .next (s.ret .fail [] []) := by
  show Host.Outcome.next (s.gated _) = _
  cases ho : s.cryptoAllowed with
  | false => rw [State.gated_closed ho]
  | true => rw [State.gated_open ho, if_pos hbad, State.fail_eq]

/-- Settles O32: the loop by its blocks, all of one length, and the refusals by the tests of the command. -/
theorem hkdfAnswersKeyMaterial : Obligations.HkdfAnswersKeyMaterial := by
  unfold Obligations.HkdfAnswersKeyMaterial
  exact ⟨fun s len ho hlen hbuf => ⟨hkdf s.in0 s.in1 s.in2 len.toNat, exec_hkdf_answers ho hlen hbuf,
    hkdf_length .., hkdf_eq ..⟩, fun _ _ _ hbad => exec_hkdf_refused hbad⟩

end Sys2Proof.Machine
end

section
/-! SUPPORT. The verdict of the health tests on a whole stream of noise words (R192, R193), and the two commands that ask for
words: what the startup test makes of 128 of them and what `TRNG_WORD` makes of one (R194, R197, R198). -/

namespace Sys2Proof.Machine

/-! The injected TRNG failures (R38) -/

theorem State.injected_errTrngRct (s : State) : s.injected errTrngRct = s.fipsInject.getLsbD 1 := by
  have hbit : errTrngRct = BitVec.twoPow 32 1 := rfl
  rw [State.injected, hbit, BitVec.and_twoPow, BitVec.getLsbD_setWidth]
  cases s.fipsInject.getLsbD 1 <;> rfl

theorem State.injected_errTrngApt (s : State) : s.injected errTrngApt = s.fipsInject.getLsbD 2 := by
  have hbit : errTrngApt = BitVec.twoPow 32 2 := rfl
  rw [State.injected, hbit, BitVec.and_twoPow, BitVec.getLsbD_setWidth]
  cases s.fipsInject.getLsbD 2 <;> rfl

/-- No TRNG failure is injected. -/
theorem State.fipsInject_and_trng (s : State) :
    s.fipsInject &&& 0x6 = 0 ↔ s.injected errTrngRct = false ∧ s.injected errTrngApt = false := by
  have hbits : (0x6 : BitVec 16) = BitVec.twoPow 16 1 ||| BitVec.twoPow 16 2 := rfl
  rw [s.injected_errTrngRct, s.injected_errTrngApt, hbits, BitVec.and_or_distrib_left, BitVec.and_twoPow,
    BitVec.and_twoPow]
  cases s.fipsInject.getLsbD 1 <;> cases s.fipsInject.getLsbD 2 <;> decide

/-! The repetition count test on a stream (R192) -/

/-- The samples of the current run: what a record keeps of the stream before it. -/
def Trng.currentRun (t : Trng) : List Bool := t.runBit.elim [] (List.replicate t.runLen)

theorem Trng.currentRun_length_le (t : Trng) : t.currentRun.length ≤ t.runLen := by
  cases h : t.runBit <;> simp [Trng.currentRun, h]

theorem noLongRun_of_length_lt {l : List Bool} (h : l.length < 52) : NoLongRun l := fun c hrun =>
  absurd hrun.length_le (by simpa using h)

theorem noLongRun_cons {b : Bool} {l : List Bool} :
    NoLongRun (b :: l) ↔ (∀ c : Bool, ¬ List.replicate 52 c <+: b :: l) ∧ NoLongRun l := by
  simp only [NoLongRun, List.infix_cons_iff, not_or, forall_and]

theorem not_noLongRun_replicate_append {n : Nat} (h : 52 ≤ n) (c : Bool) (l : List Bool) :
    ¬ NoLongRun (List.replicate n c ++ l) := fun hno =>
  hno c (List.infix_append_of_infix_left (List.infix_replicate_iff.mpr ⟨by simpa using h, by simp⟩))

/-- A short run that ends may be forgotten. -/
theorem noLongRun_replicate_append {n : Nat} (h : n < 52) {b c : Bool} (hne : b ≠ c) (l : List Bool) :
    NoLongRun (List.replicate n c ++ b :: l) ↔ NoLongRun (b :: l) := by
  induction n with
  | zero => rfl
  | succ n ih =>
    have hstart : ∀ d : Bool, ¬ List.replicate 52 d <+: List.replicate (n + 1) c ++ b :: l := by
      intro d hpre
      have hfirst := hpre.getElem (i := 0) (by simp)
      have hnext := hpre.getElem (i := n + 1) (by simpa using h)
      rw [List.getElem_replicate] at hfirst hnext
      have hc : d = c := by simpa using hfirst
      have hb : d = b := by simpa using hnext
      exact hne (hb.symm.trans hc)
    rw [← ih (by omega)]
    exact noLongRun_cons.trans (and_iff_right hstart)

/-- A sample that goes on with the run or begins another. -/
theorem Trng.sample_noLongRun {t : Trng} (h : t.runLen < 52) (b : Bool) (l : List Bool) :
    NoLongRun (t.currentRun ++ b :: l) ↔ NoLongRun ((t.sample b).currentRun ++ l) := by
  obtain ⟨bit, len, window, healthy, failed⟩ := t
  cases bit with
  | none => rfl
  | some c =>
    by_cases hbc : c = b
    · subst hbc
      simp [Trng.sample, Trng.currentRun, List.replicate_succ']
    · simpa [Trng.sample, Trng.currentRun, hbc] using noLongRun_replicate_append h (Ne.symm hbc) l

theorem Trng.sample_runBit (t : Trng) (b : Bool) : (t.sample b).runBit = some b := by
  unfold Trng.sample
  split
  · assumption
  · rfl

/-- The test passes exactly the streams that make no long run with the current one. -/
theorem Trng.runTest_passes_iff {t : Trng} (h : t.runLen < 52) (bs : List Bool) :
    (t.runTest bs).2 = false ↔ NoLongRun (t.currentRun ++ bs) := by
  induction bs generalizing t with
  | nil =>
    rw [List.append_nil]
    exact iff_of_true rfl (noLongRun_of_length_lt (t.currentRun_length_le.trans_lt h))
  | cons b bs ih =>
    rw [t.sample_noLongRun h]
    have hstep : (t.runTest (b :: bs)).2 = (decide (52 ≤ (t.sample b).runLen) || ((t.sample b).runTest bs).2) := rfl
    rw [hstep]
    by_cases hlong : 52 ≤ (t.sample b).runLen
    · rw [Trng.currentRun, t.sample_runBit]
      simpa [hlong] using not_noLongRun_replicate_append hlong b bs
    · simpa [hlong] using ih (Nat.lt_of_not_le hlong)

/-- The run test does not look at the window. -/
theorem Trng.runTest_setWindow (t : Trng) (window : List Word) (bs : List Bool) :
    ({ t with window := window } : Trng).runTest bs =
      ({ (t.runTest bs).1 with window := window }, (t.runTest bs).2) := by
  induction bs generalizing t with
  | nil => rfl
  | cons b bs ih =>
    have hsample : ({ t with window := window } : Trng).sample b = { t.sample b with window := window } := by
      unfold Trng.sample
      split <;> rfl
    simp only [Trng.runTest, hsample, ih]

/-! The adaptive proportion test on a stream (R193) -/

theorem slideWindow_eq_drop {window : List Word} (h : window.length ≤ 32) (w : Word) :
    slideWindow window w = (window ++ [w]).drop (window.length + 1 - 32) := by
  simp only [slideWindow, Config.aptWindowWords, List.length_append, List.length_singleton]
  split
  · rw [show window.length + 1 - 32 = 1 by omega]
  · rw [show window.length + 1 - 32 = 0 by omega, List.drop_zero]

/-- The window holds the last 32 words of the stream. -/
theorem foldl_slideWindow (ws : List Word) :
    ws.foldl slideWindow [] = ws.drop (ws.length - 32) := by
  induction ws using List.reverseRecOn with
  | nil => rfl
  | append_singleton ws w ih =>
    have hlen : (ws.drop (ws.length - 32)).length ≤ 32 := by simp; omega
    rw [List.foldl_append, ih, List.foldl_cons, List.foldl_nil, slideWindow_eq_drop hlen,
      ← List.drop_append_of_le_length (by omega), List.drop_drop, List.length_drop, List.length_append,
      List.length_singleton]
    congr 1
    omega

/-- Only a full window can fail. -/
theorem proportionFails_of_length_ne {window : List Word} (h : window.length ≠ 32) : proportionFails window = false := by
  have hlen : (window.length == Config.aptWindowWords) = false := beq_eq_false_iff_ne.mpr h
  rw [proportionFails, hlen, Bool.false_and]

/-- The windows of a stream are the ends of its prefixes. -/
theorem windowsFair_iff {ws : List Word} :
    WindowsFair ws ↔ ∀ us, us <+: ws → proportionFails (us.foldl slideWindow []) = false := by
  constructor
  · intro hfair us hus
    rw [foldl_slideWindow]
    by_cases hlen : (us.drop (us.length - 32)).length = 32
    · exact (proportionFails_eq_false hlen).mpr
        (hfair _ (List.infix_iff_suffix_prefix.mpr ⟨us, List.drop_suffix .., hus⟩) hlen)
    · exact proportionFails_of_length_ne hlen
  · intro hends window hwindow hlen
    obtain ⟨_, ⟨before, rfl⟩, hus⟩ := List.infix_iff_suffix_prefix.mp hwindow
    have hend := hends _ hus
    rw [foldl_slideWindow, List.length_append, hlen, Nat.add_sub_cancel, List.drop_left] at hend
    exact (proportionFails_eq_false hlen).mp hend

/-! Both tests, word by word (R194) -/

/-- The record after a word, whatever the verdict. -/
def Trng.afterWord (t : Trng) (w : Word) : Trng :=
  { (t.runTest (samplesOf w)).1 with window := slideWindow t.window w }

/-- Whether a word passes both tests. -/
def Trng.passesWord (t : Trng) (w : Word) : Bool :=
  !((t.runTest (samplesOf w)).2 || proportionFails (slideWindow t.window w))

/-- Whether each of these words in turn passes both tests. -/
def Trng.accepts (t : Trng) : List Word → Bool
  | [] => true
  | w :: ws => t.passesWord w && (t.afterWord w).accepts ws

/-- The run test goes on over the words that follow from the record after the first. -/
theorem Trng.runTest_cons (t : Trng) (w : Word) (ws : List Word) :
    (t.runTest (sampleStream (w :: ws))).2 =
        ((t.runTest (samplesOf w)).2 || ((t.afterWord w).runTest (sampleStream ws)).2) ∧
      ∀ window : List Word, { (t.runTest (sampleStream (w :: ws))).1 with window := window } =
        { ((t.afterWord w).runTest (sampleStream ws)).1 with window := window } := by
  have hstream : sampleStream (w :: ws) = samplesOf w ++ sampleStream ws := rfl
  have hafter : (t.afterWord w).runTest (sampleStream ws) = _ := Trng.runTest_setWindow ..
  rw [hstream, Trng.runTest_append, hafter]
  exact ⟨rfl, fun _ => rfl⟩

/-- The record after these words. -/
theorem Trng.foldl_afterWord (t : Trng) (ws : List Word) : ws.foldl Trng.afterWord t =
    { (t.runTest (sampleStream ws)).1 with window := ws.foldl slideWindow t.window } := by
  induction ws generalizing t with
  | nil => rfl
  | cons w ws ih =>
    rw [(t.runTest_cons w ws).2, List.foldl_cons, ih]
    rfl

theorem Trng.accepts_iff {t : Trng} (h : proportionFails t.window = false) (ws : List Word) :
    t.accepts ws = true ↔ (t.runTest (sampleStream ws)).2 = false ∧
      ∀ us, us <+: ws → proportionFails (us.foldl slideWindow t.window) = false := by
  induction ws generalizing t with
  | nil => simpa [Trng.accepts, sampleStream, Trng.runTest] using h
  | cons w ws ih =>
    have hprefixes : (∀ us, us <+: w :: ws → proportionFails (us.foldl slideWindow t.window) = false) ↔
        ∀ us, us <+: ws → proportionFails (us.foldl slideWindow (slideWindow t.window w)) = false := by
      simp only [List.prefix_cons_iff, forall_eq_or_imp, List.foldl_nil, h, true_and]
      exact ⟨fun hp us hus => hp _ ⟨us, rfl, hus⟩, fun hp _ ⟨us, hw, hus⟩ => hw ▸ hp us hus⟩
    rw [hprefixes, (t.runTest_cons w ws).1, Trng.accepts, Trng.passesWord, Bool.and_eq_true, Bool.not_eq_true',
      Bool.or_eq_false_iff, Bool.or_eq_false_iff]
    constructor
    · rintro ⟨⟨hrun, hwindow⟩, hrest⟩
      obtain ⟨hruns, hwindows⟩ := (ih hwindow).mp hrest
      exact ⟨⟨hrun, hruns⟩, hwindows⟩
    · rintro ⟨⟨hrun, hruns⟩, hwindows⟩
      have hwindow := hwindows [] List.nil_prefix
      exact ⟨⟨hrun, hwindow⟩, (ih hwindow).mpr ⟨hruns, hwindows⟩⟩

/-- From an empty record the two tests accept exactly the streams without a long run and with fair windows. -/
theorem Trng.afterReset_accepts_iff (ws : List Word) :
    Trng.afterReset.accepts ws = true ↔ NoLongRun (sampleStream ws) ∧ WindowsFair ws :=
  (Trng.accepts_iff rfl ws).trans (and_congr (Trng.runTest_passes_iff (by decide) _) windowsFair_iff.symm)

/-! The health step and the loop of the startup test (R194, R197) -/

theorem State.health_eq_pass {s : State} {w : Word} (hi : s.fipsInject &&& 0x6 = 0) (h : s.trng.passesWord w = true) :
    s.health w = (true, { s with trng := s.trng.afterWord w }) := by
  obtain ⟨hrct, hapt⟩ := s.fipsInject_and_trng.mp hi
  rw [Trng.passesWord, Bool.not_eq_true', Bool.or_eq_false_iff] at h
  obtain ⟨hrun, hwindow⟩ := h
  rcases s.health_cases w with ⟨-, -, he⟩ | ⟨hbad, -⟩
  · exact he
  · simp [hrun, hwindow, hrct, hapt] at hbad

theorem State.health_fails {s : State} {w : Word}
    (h : s.fipsInject &&& 0x6 ≠ 0 ∨ s.trng.passesWord w = false) : (s.health w).1 = false := by
  rcases s.health_cases w with ⟨hr, ha, -⟩ | ⟨-, he⟩
  · obtain ⟨hrun, hrct⟩ := Bool.or_eq_false_iff.mp hr
    obtain ⟨hwindow, hapt⟩ := Bool.or_eq_false_iff.mp ha
    rcases h with hi | hw
    · exact absurd (s.fipsInject_and_trng.mpr ⟨hrct, hapt⟩) hi
    · simp [Trng.passesWord, hrun, hwindow] at hw
  · rw [he]

/-- The inputs after `n` requests to the noise source. -/
def Env.afterNoises (n : Nat) (e : Env) : Env := { e with noise := e.noise.drop n, noiseCount := e.noiseCount + n }

theorem Env.afterNoise_afterNoises (n : Nat) (e : Env) : e.afterNoise.afterNoises n = e.afterNoises (n + 1) := by
  simp [Env.afterNoises, Env.afterNoise, Nat.add_assoc, Nat.add_comm 1]

theorem Env.nextNoise_of_cons {e : Env} {w : Word} {ws : List Word} (h : e.noise = w :: ws) : e.nextNoise = w := by
  rw [Env.nextNoise, h]

/-- A placed word that passes, in the loop. -/
theorem State.startupLoop_pass {n : Nat} {s : State} {w : Word} {ws : List Word} (hn : s.env.noise = w :: ws)
    (hi : s.fipsInject &&& 0x6 = 0) (hw : s.trng.passesWord w = true) : State.startupLoop (n + 1) s =
      State.startupLoop n { s with trng := s.trng.afterWord w, env := s.env.afterNoise } := by
  simp only [State.startupLoop, State.noiseWord, Env.nextNoise_of_cons hn]
  rw [State.health_eq_pass (s := { s with env := s.env.afterNoise }) hi hw]

/-- A placed word that fails, in the loop. -/
theorem State.startupLoop_fail {n : Nat} {s : State} {w : Word} {ws : List Word} (hn : s.env.noise = w :: ws)
    (h : s.fipsInject &&& 0x6 ≠ 0 ∨ s.trng.passesWord w = false) : (State.startupLoop (n + 1) s).1 = false := by
  have hfails := State.health_fails (s := { s with env := s.env.afterNoise }) (w := w) h
  simp only [State.startupLoop, State.noiseWord, Env.nextNoise_of_cons hn]
  split
  · rfl
  · next he =>
    rw [he] at hfails
    cases hfails

/-- The loop runs through placed words that the tests accept. -/
theorem State.startupLoop_of_accepts {s : State} {ws rest : List Word} (hi : s.fipsInject &&& 0x6 = 0)
    (hn : s.env.noise = ws ++ rest) (h : s.trng.accepts ws = true) : State.startupLoop ws.length s =
      (true, { s with trng := ws.foldl Trng.afterWord s.trng, env := s.env.afterNoises ws.length }) := by
  induction ws generalizing s with
  | nil => rfl
  | cons w ws ih =>
    obtain ⟨hw, hws⟩ := Bool.and_eq_true_iff.mp h
    have hrest : s.env.afterNoise.noise = ws ++ rest := congrArg List.tail hn
    rw [List.length_cons, State.startupLoop_pass hn hi hw, ← Env.afterNoise_afterNoises]
    exact ih hi hrest hws

/-- The loop meets a bad word where the tests do not accept the placed ones, and at once with an injection. -/
theorem State.startupLoop_of_rejects {s : State} {ws rest : List Word} (hn : s.env.noise = ws ++ rest)
    (h : s.trng.accepts ws = false ∨ s.fipsInject &&& 0x6 ≠ 0 ∧ ws ≠ []) :
    (State.startupLoop ws.length s).1 = false := by
  induction ws generalizing s with
  | nil => simp [Trng.accepts] at h
  | cons w ws ih =>
    by_cases hbad : s.fipsInject &&& 0x6 ≠ 0 ∨ s.trng.passesWord w = false
    · exact State.startupLoop_fail hn hbad
    · obtain ⟨hi, hw⟩ := not_or.mp hbad
      rw [not_not] at hi
      rw [Bool.not_eq_false] at hw
      have hws : (s.trng.afterWord w).accepts ws = false := by
        rcases h with h | ⟨h, -⟩
        · rwa [Trng.accepts, hw, Bool.true_and] at h
        · exact absurd hi h
      rw [List.length_cons, State.startupLoop_pass hn hi hw]
      exact ih (congrArg List.tail hn) (.inl hws)

/-! The startup test (R197) -/

theorem State.trngStartup_refused {s : State} (h : s.hasError = true ∨ s.trng.failed = true) :
    s.trngStartup = (false, s) := if_pos (by simpa using h)

theorem State.trngStartup_of_loop_passed {s t : State} (he : s.hasError = false) (hf : s.trng.failed = false)
    (h : State.startupLoop Config.startupWords s.startupBegun = (true, t)) :
    s.trngStartup = (true, { t with trng := { t.trng with healthy := true } }) := by
  simp only [State.startupBegun, hf] at h
  simp [State.trngStartup, he, hf, h]

theorem State.trngStartup_of_loop_failed {s t : State} (he : s.hasError = false) (hf : s.trng.failed = false)
    (h : State.startupLoop Config.startupWords s.startupBegun = (false, t)) : s.trngStartup = (false, t) := by
  simp only [State.startupBegun, hf] at h
  simp [State.trngStartup, he, hf, h]

theorem State.startupBegun_trng {s : State} (hf : s.trng.failed = false) : s.startupBegun.trng = Trng.afterReset := by
  simp [State.startupBegun, Trng.afterReset, hf]

/-- The record after a startup test that passed these words: the last run, the last 32 words, healthy. -/
def Trng.startedOn (ws : List Word) : Trng :=
  let run := (Trng.afterReset.runTest (sampleStream ws)).1
  { runBit := run.runBit, runLen := run.runLen, window := ws.drop (ws.length - 32), healthy := true, failed := false }

theorem Trng.startedOn_eq (ws : List Word) :
    { ws.foldl Trng.afterWord Trng.afterReset with healthy := true } = Trng.startedOn ws := by
  rw [Trng.foldl_afterWord, Trng.runTest_frame, Trng.startedOn, ← foldl_slideWindow]
  rfl

/-- The latch of a test that began with an empty record is one of the state before it. -/
theorem State.latched_of_startupBegun {s t : State} (h : s.startupBegun.Latched t) : s.Latched t where
  status := h.status
  persist := h.persist
  failed := h.failed
  healthy := h.healthy
  window _ := h.window (Nat.zero_le _)
  run _ := h.run (Nat.zero_lt_succ _)

theorem State.trngStartup_passes {s : State} {ws rest : List Word} (he : s.hasError = false)
    (hf : s.trng.failed = false) (hi : s.fipsInject &&& 0x6 = 0) (hn : s.env.noise = ws ++ rest)
    (hlen : ws.length = 128) (hrun : NoLongRun (sampleStream ws)) (hfair : WindowsFair ws) :
    s.trngStartup = (true, { s with trng := Trng.startedOn ws, env := s.env.afterNoises 128 }) := by
  have hbegun := s.startupBegun_trng hf
  have hloop := State.startupLoop_of_accepts (s := s.startupBegun) hi hn
    (hbegun ▸ (Trng.afterReset_accepts_iff ws).mpr ⟨hrun, hfair⟩)
  rw [hlen, hbegun] at hloop
  rw [State.trngStartup_of_loop_passed he hf hloop, ← Trng.startedOn_eq]
  rfl

/-- A startup test that meets a bad word latches the failure. -/
theorem State.trngStartup_latches {s : State} {ws rest : List Word} (he : s.hasError = false)
    (hf : s.trng.failed = false) (hn : s.env.noise = ws ++ rest) (hlen : ws.length = 128)
    (hbad : ¬ (NoLongRun (sampleStream ws) ∧ WindowsFair ws) ∨ s.fipsInject &&& 0x6 ≠ 0) :
    ∃ t, s.trngStartup = (false, t) ∧ s.SameButNoise t ∧ s.Latched t := by
  have hrejects : s.startupBegun.trng.accepts ws = false ∨ s.fipsInject &&& 0x6 ≠ 0 ∧ ws ≠ [] := by
    rw [s.startupBegun_trng hf, ← Bool.not_eq_true, Trng.afterReset_accepts_iff]
    exact hbad.imp_right fun hi => ⟨hi, List.ne_nil_of_length_eq_add_one hlen⟩
  have hfails := State.startupLoop_of_rejects (s := s.startupBegun) hn hrejects
  have hsame := s.trngStartup_frame
  rw [hlen] at hfails
  rcases State.startupLoop_cases 128 s.startupBegun with ⟨t, ht, -⟩ | ⟨t, ht, hl⟩
  · rw [ht] at hfails
    cases hfails
  · have hst := State.trngStartup_of_loop_failed he hf ht
    rw [hst] at hsame
    exact ⟨t, hst, hsame, State.latched_of_startupBegun hl⟩

/-- What a command that answers `FAIL` after a bad word leaves (R194). -/
theorem State.Latched.leftByBadStartup {s t : State} (h : s.Latched t) (hsame : s.SameButNoise t) :
    s.LeftByBadStartup (t.ret .fail [] []) := by
  obtain ⟨rct, apt, hbad, hst⟩ := h.status
  refine ⟨?_, h.failed, h.healthy, fun h0 => ?_, ?_⟩
  · conv_lhs => rw [show t = _ from hsame, h.persist]
    rfl
  · rw [State.ret_fipsStatus, hst, or_and_eq_zero, and_errorMask_and rfl] at h0
    exact healthBits_and_trng hbad h0.2
  · rw [State.ret_fipsStatus, hst]
    exact or_and_of_and_eq_zero (by cases rct <;> cases apt <;> decide)

/-- A latched failure closes the gate (R394). -/
theorem State.Latched.cryptoAllowed {s t : State} (h : s.Latched t) : t.cryptoAllowed = false := by
  obtain ⟨rct, apt, hbad, hst⟩ := h.status
  rw [← Bool.not_eq_true, State.cryptoAllowed_iff]
  rintro ⟨-, h0⟩
  rw [hst, or_and_eq_zero, and_errorMask_and BitVec.and_self] at h0
  exact healthBits_and_errorMask hbad h0.2

theorem exec_trngStartup_eq {s t : State} {good : Bool} (h : s.trngStartup = (good, t)) :
    exec .trngStartup s = .next (t.verdict good) := by
  show execTrngStartup s = _
  rw [execTrngStartup, h]
  cases good <;> rfl

/-- Settles O33: from the empty record that the test begins with, the two tests accept exactly the streams of the statement;
the loop runs through them, and on all others it meets a bad word. -/
theorem trngStartupJudgesNoise : Obligations.TrngStartupJudgesNoise := by
  unfold Obligations.TrngStartupJudgesNoise
  refine ⟨fun s ws rest he hf hi hn hlen hrun hfair => ?_, fun s ws rest he hf hn hlen hbad => ?_,
    fun s h => exec_trngStartup_eq (State.trngStartup_refused h)⟩
  · have hnoise : s.env.afterNoises 128 = { s.env with noise := rest, noiseCount := s.env.noiseCount + 128 } := by
      rw [Env.afterNoises, hn, ← hlen, List.drop_left]
    rw [exec_trngStartup_eq (State.trngStartup_passes he hf hi hn hlen hrun hfair), hnoise, Trng.startedOn, hlen]
    rfl
  · obtain ⟨t, hst, hsame, hl⟩ := State.trngStartup_latches he hf hn hlen hbad
    exact ⟨_, exec_trngStartup_eq hst, hl.leftByBadStartup hsame, hl.cryptoAllowed⟩

/-! One word (R198) -/

/-- With an open gate and a healthy source the health step decides the result. -/
theorem exec_trngWord_eq {s t : State} {good : Bool} (ho : s.cryptoAllowed = true) (hh : s.trng.healthy = true)
    (hf : s.trng.failed = false) (h : s.noiseWord.2.health s.env.nextNoise = (good, t)) :
    exec .trngWord s = .next (if good then t.ret .ok (wordBytes s.env.nextNoise) [] else t.ret .fail [] []) := by
  show Host.Outcome.next (s.gated _) = _
  rw [State.noiseWord] at h
  cases good <;> simp [State.gated_open ho, State.trngWord, State.noiseWord, hh, hf, h]

/-- All bits of a health step are error bits (R35). -/
theorem or_healthBits (x : Word) (rct apt : Bool) :
    x ||| (healthBits rct apt &&& errorMask) = x ||| (if rct then 0x2 else 0) ||| (if apt then 0x4 else 0) := by
  rw [BitVec.or_assoc]
  cases rct <;> cases apt <;> rfl

theorem wordBytes_eq (w : Word) :
    wordBytes w = [w.extractLsb' 0 8, w.extractLsb' 8 8, w.extractLsb' 16 8, w.extractLsb' 24 8] := by
  simp [wordBytes, toLE, BitVec.extractLsb', Nat.shiftRight_eq_div_pow, Nat.div_div_eq_div_mul]

/-- Settles O34: the two outcomes of the health step on the next word. -/
theorem trngWordDelivers : Obligations.TrngWordDelivers := by
  unfold Obligations.TrngWordDelivers
  rintro s w ho hh hf rfl run window rct apt
  have hrct : rct = (run.2 || s.injected errTrngRct) := by simp [rct, s.injected_errTrngRct]
  have hapt : apt = (proportionFails window || s.injected errTrngApt) := by simp [apt, s.injected_errTrngApt]
  rw [hrct, hapt]
  rcases s.noiseWord.2.health_cases s.env.nextNoise with ⟨hr, ha, h⟩ | ⟨hbad, h⟩
  · refine ⟨fun _ _ => ?_, fun hbad => ?_⟩
    · rw [exec_trngWord_eq ho hh hf h, wordBytes_eq]
      rfl
    · exact absurd hbad (not_or.mpr ⟨ne_true_of_eq_false hr, ne_true_of_eq_false ha⟩)
  · refine ⟨fun hr ha => ?_, fun _ => ?_⟩
    · exact absurd hbad (not_or.mpr ⟨ne_true_of_eq_false hr, ne_true_of_eq_false ha⟩)
    · rw [exec_trngWord_eq ho hh hf h, ← or_healthBits]
      rfl

end Sys2Proof.Machine
end

section
/-! SUPPORT. The commands that write a DRBG slot (R211 to R214, R218, R219): the steps of `Update`, and what each command
answers. -/

namespace Sys2Proof.Machine

/-! `Update` (R211, R212) -/

/-- `Update` by its data: one half without any, both halves with some (R211). -/
theorem Drbg.update_eq (d : Drbg) (pd : Bytes) :
    d.update pd = if pd = [] then d.updateHalf 0x00 pd else (d.updateHalf 0x00 pd).updateHalf 0x01 pd := by
  cases pd <;> simp [Drbg.update]

/-- `Update` neither reads nor writes the counter. -/
theorem Drbg.update_setCounter (d : Drbg) (c : Word) (pd : Bytes) :
    ({ d with reseedCounter := c } : Drbg).update pd = { d.update pd with reseedCounter := c } := by
  simp only [Drbg.update_eq]
  split <;> simp only [Drbg.updateHalf]

/-- Settles O35: the halves of `Update` are the steps of R211, and the state at instantiation is R212's. -/
theorem drbgUpdateSteps : Obligations.DrbgUpdateSteps := by
  unfold Obligations.DrbgUpdateSteps
  refine ⟨fun d pd => ⟨?_, d.update_lengths pd⟩, fun seed threshold => rfl⟩
  rw [Drbg.update_eq]
  simp only [Drbg.updateHalf, drbgHmac, List.append_assoc, List.singleton_append]

/-! The commands that write a slot (R213, R214, R218, R219) -/

theorem State.isDrbgSlot_of_lt {s : State} {g : BitVec 4} (hg : g.toNat < s.cfg.nDrbg) : s.isDrbgSlot g = true :=
  decide_eq_true hg

theorem State.isDrbgSlot_of_le {s : State} {g : BitVec 4} (hg : s.cfg.nDrbg ≤ g.toNat) : s.isDrbgSlot g = false :=
  decide_eq_false (Nat.not_lt.mpr hg)

/-- A port that holds a word's bytes is the word operand (R32). -/
theorem wordOperand_wordBytes (w : Word) : wordOperand (wordBytes w) = some w := by
  refine wordOperand_eq_some.mpr ⟨wordBytes_length w, BitVec.eq_of_toNat_eq ?_⟩
  rw [wordBytes, le_toLE, BitVec.toNat_ofNat]
  have := w.isLt
  omega

section Commands

variable {s : State} {g : BitVec 4}

theorem exec_drbgInit {threshold : Word} (ho : s.cryptoAllowed = true) (hg : g.toNat < s.cfg.nDrbg)
    (hw : wordOperand s.in3 = some threshold) :
    exec (.drbgInit g) s =
      .next ((s.setDrbg g (Drbg.instantiate (s.in0 ++ s.in1 ++ s.in2) threshold)).ret .ok [] []) := by
  show Host.Outcome.next (s.gated _) = _
  simp only [State.gated_open ho, State.isDrbgSlot_of_lt hg, hw, State.done_eq]

theorem exec_drbgInit_refused (ho : s.cryptoAllowed = true) (h : s.isDrbgSlot g = false ∨ wordOperand s.in3 = none) :
    exec (.drbgInit g) s = .next (s.ret .fail [] []) := by
  show Host.Outcome.next (s.gated _) = _
  rw [State.gated_open ho]
  split
  · next hg hw => simp [hg, hw] at h
  · rfl

theorem exec_drbgReseed (ho : s.cryptoAllowed = true) (hg : g.toNat < s.cfg.nDrbg) (hv : (s.drbgAt g).cookie = .valid) :
    exec (.drbgReseed g) s = .next ((s.setDrbg g ((s.drbgAt g).reseed (s.in0 ++ s.in1))).ret .ok [] []) := by
  show Host.Outcome.next (s.gated _) = _
  rw [State.gated_open ho, if_pos ⟨State.isDrbgSlot_of_lt hg, hv⟩, State.done_eq]

theorem exec_drbgReseed_refused (ho : s.cryptoAllowed = true)
    (h : s.isDrbgSlot g = false ∨ (s.drbgAt g).cookie = .invalid) :
    exec (.drbgReseed g) s = .next (s.ret .fail [] []) := by
  show Host.Outcome.next (s.gated _) = _
  rw [State.gated_open ho, if_neg (by rcases h with h | h <;> simp [h]), State.fail_eq]

theorem exec_drbgInitRfc6979 (ho : s.cryptoAllowed = true) (hg : g.toNat < s.cfg.nDrbg) (h0 : s.in0.length = 32)
    (h1 : s.in1.length = 32) :
    exec (.drbgInitRfc6979 g) s =
      .next ((s.setDrbg g (Drbg.instantiate (s.in0 ++ s.in1) s.cfg.noAutoReseed)).ret .ok [] []) := by
  show Host.Outcome.next (s.gated _) = _
  rw [State.gated_open ho, if_pos ⟨State.isDrbgSlot_of_lt hg, h0, h1⟩, State.done_eq]

theorem exec_drbgInitRfc6979_refused (ho : s.cryptoAllowed = true)
    (h : s.isDrbgSlot g = false ∨ s.in0.length ≠ 32 ∨ s.in1.length ≠ 32) :
    exec (.drbgInitRfc6979 g) s = .next (s.ret .fail [] []) := by
  show Host.Outcome.next (s.gated _) = _
  rw [State.gated_open ho, if_neg (by rcases h with h | h | h <;> simp [h]), State.fail_eq]

theorem exec_drbgExit (hg : g.toNat < s.cfg.nDrbg) :
    exec (.drbgExit g) s = .next ((s.setDrbg g Drbg.erased).ret .ok [] []) := by
  show Host.Outcome.next (if _ then _ else _) = _
  rw [if_pos (State.isDrbgSlot_of_lt hg), State.done_eq]

theorem exec_drbgExit_refused (hg : s.cfg.nDrbg ≤ g.toNat) : exec (.drbgExit g) s = .next (s.ret .fail [] []) := by
  show Host.Outcome.next (if _ then _ else _) = _
  rw [if_neg (Bool.eq_false_iff.mp (State.isDrbgSlot_of_le hg)), State.fail_eq]

end Commands

/-- Settles O36: each command by its tests; a port of another length than 4 is no word. -/
theorem drbgSlotCommands : Obligations.DrbgSlotCommands := by
  unfold Obligations.DrbgSlotCommands
  refine ⟨fun s g threshold ho hg hin => ?_, fun s g ho hg hv => exec_drbgReseed ho hg hv,
    fun s g ho hg h0 h1 => exec_drbgInitRfc6979 ho hg h0 h1,
    fun s g ho => ⟨fun hbad => ?_, fun hbad => ?_, fun hbad => ?_⟩,
    fun s g => ⟨fun hg => exec_drbgExit hg, fun hg => exec_drbgExit_refused hg⟩⟩
  · exact exec_drbgInit ho hg (by rw [hin, ← wordBytes_eq, wordOperand_wordBytes])
  · exact exec_drbgInit_refused ho (hbad.imp State.isDrbgSlot_of_le fun hl => if_neg hl)
  · exact exec_drbgReseed_refused ho (hbad.imp_left State.isDrbgSlot_of_le)
  · exact exec_drbgInitRfc6979_refused ho (hbad.imp_left State.isDrbgSlot_of_le)

end Sys2Proof.Machine
end

section
/-! SUPPORT. `DRBG_GENERATE` with an auto-reseed (R213, R216, R217): a TRNG that delivers leaves the gate as it was, and what
the call answers from the reseeded generator. -/

namespace Sys2Proof.Machine

/-- A delivered word raises nothing (R194, R198). -/
theorem State.trngWord_status {s t : State} {w : Word} (h : s.trngWord = (some w, t)) :
    t.fipsStatus = s.fipsStatus := by
  obtain ⟨-, -, -, hh⟩ := State.trngWord_some h
  rcases s.nextWord_cases with ⟨u, hu, hp⟩ | ⟨u, hu, -⟩
  · obtain ⟨-, rfl⟩ := Prod.mk.inj (hu.symm.trans hh)
    exact hp.status
  · cases hu.symm.trans hh

theorem State.trngWordBytes_status {n : Nat} {s t : State} {b : Bytes} (h : State.trngWordBytes n s = (some b, t)) :
    t.fipsStatus = s.fipsStatus := by
  induction n generalizing s b with
  | zero =>
    obtain ⟨-, rfl⟩ := Prod.mk.inj h
    rfl
  | succ n ih =>
    rw [State.trngWordBytes] at h
    rcases hw : s.trngWord with ⟨_ | w, s1⟩
    · simp [hw] at h
    · rcases hr : State.trngWordBytes n s1 with ⟨_ | rest, s2⟩
      · simp [hw, hr] at h
      · simp only [hw, hr, Prod.mk.injEq] at h
        obtain ⟨-, rfl⟩ := h
        exact (ih hr).trans (State.trngWord_status hw)

/-- Delivered bytes raise nothing (R199). -/
theorem State.trngBytes_status {n : Nat} {s t : State} {b : Bytes} (h : s.trngBytes n = (some b, t)) :
    t.fipsStatus = s.fipsStatus := by
  rw [State.trngBytes] at h
  rcases hw : State.trngWordBytes ((n + 3) / 4) s with ⟨_ | bytes, s1⟩
  · simp [hw] at h
  · simp only [hw, Prod.mk.injEq] at h
    obtain ⟨-, rfl⟩ := h
    exact State.trngWordBytes_status hw

/-- Asking for bytes is a question to the noise source and changes nothing else. -/
theorem State.trngBytes_sameButNoise {n : Nat} {s t : State} {b : Option Bytes} (h : s.trngBytes n = (b, t)) :
    s.SameButNoise t := by
  have hf := s.trngBytes_frame n
  rwa [h] at hf

section

variable {s s1 : State} {g : BitVec 4} {n : Nat} {addl : Bytes}

/-- A call that reseeds drops its additional input and answers from the reseeded generator (R216, R217). -/
theorem State.drbgGenerate_reseeded {e : Bytes} (h : (s.drbgAt g).refuses s.cfg.noAutoReseed n = none)
    (hd : (s.drbgAt g).reseedDue = true) (he : s.trngBytes s.cfg.entropyBytes = (some e, s1)) :
    s.drbgGenerate g n addl =
      (.ok, (((s.drbgAt g).reseed e).produce n []).1, s1.setDrbg g (((s.drbgAt g).reseed e).produce n []).2) := by
  simp only [State.drbgGenerate, h, hd, he, if_true]

theorem State.drbgGenerate_noEntropy (h : (s.drbgAt g).refuses s.cfg.noAutoReseed n = none)
    (hd : (s.drbgAt g).reseedDue = true) (he : s.trngBytes s.cfg.entropyBytes = (none, s1)) :
    s.drbgGenerate g n addl = (.fail, [], s1) := by
  simp only [State.drbgGenerate, h, hd, he, if_true]

end

/-- The formulas of R216 on a reseeded generator, whose counter is 1. -/
theorem Drbg.produce_reseed_eq (d : Drbg) (seed : Bytes) (n : Nat) :
    let d1 := d.update seed
    let v := fun j => (hmac .sha256 d1.k)^[j] d1.v
    let m := (n + 31) / 32
    (d.reseed seed).produce n [] = (((List.range m).flatMap fun j => v (j + 1)).take n,
      { ({ d1 with v := v m } : Drbg).update [] with reseedCounter := 2 }) := by
  simp only [Drbg.produce_eq, if_true, Drbg.reseed, Drbg.update_setCounter]
  rfl

/-- A freshly reseeded generator answers without another reseed: its counter of 1 is above no threshold of at least 1, and
below the sentinel (R10, R214, R217). -/
theorem State.drbgGenerate_afterReseed {s : State} {g : BitVec 4} {n : Nat} {d : Drbg} {e : Bytes} (hl : s.cfg.Lawful)
    (hs : s.drbgAt g = d.reseed e) (hv : d.cookie = .valid) (hn : n ≤ 937) (hth : 1 ≤ d.reseedThreshold.toNat) :
    s.drbgGenerate g n [] = (.ok, ((d.reseed e).produce n []).1, s.setDrbg g ((d.reseed e).produce n []).2) := by
  have hsent := Config.one_lt_noAutoReseed hl
  have hc : (d.reseed e).reseedCounter ≠ s.cfg.noAutoReseed := fun h => by
    rw [← h, Drbg.reseed_reseedCounter] at hsent
    exact absurd hsent (by decide)
  have hdue : (d.reseed e).reseedDue = false := by
    refine decide_eq_false (Nat.not_lt.mpr ?_)
    rw [Drbg.reseed_reseedCounter, Drbg.reseed_reseedThreshold]
    exact hth
  rw [← hs] at hc hdue ⊢
  exact State.drbgGenerate_answered (Drbg.refuses_eq_none.mpr ⟨by rw [hs, Drbg.reseed_cookie, hv], hn, hc⟩) hdue

/-- `DRBG_GENERATE` by the outcome of its generate call (R215). -/
theorem exec_drbgGenerate_of_call {s t : State} {g : BitVec 4} {n : BitVec 16} {code : Result} {out : Bytes}
    (ho : s.cryptoAllowed = true) (hg : g.toNat < s.cfg.nDrbg) (h : s.drbgGenerate g n.toNat s.in0 = (code, out, t)) :
    exec (.drbgGenerate g n) s = .next (t.ret code out []) := by
  rw [exec_drbgGenerate ho hg, h]

/-- Settles O38: the explicit reseed makes the generator from which the auto-reseeding call answers, and its counter of 1 is above
no threshold of at least 1 and below the sentinel. -/
theorem autoReseedIsReseed : Obligations.AutoReseedIsReseed := by
  unfold Obligations.AutoReseedIsReseed
  refine ⟨fun s s1 g n e ho hl hg hv hn hc hth hdue he => ?_, fun s s1 g n e ho hg hv hn hc hdue he => ?_,
    fun s s1 g n ho hg hv hn hc hdue he => ?_⟩
  · have hf := State.trngBytes_sameButNoise he
    have hcfg : s1.cfg = s.cfg := hf.keeps (P := fun t => t.cfg = s.cfg) rfl
    have hd1 : s1.drbgAt g = s.drbgAt g := hf.drbgAt g
    have ho1 : s1.cryptoAllowed = true := (State.cryptoAllowed_congr (State.trngBytes_status he)).trans ho
    have hg1 : g.toNat < s1.cfg.nDrbg := hcfg ▸ hg
    let p := ((s.drbgAt g).reseed e).produce n.toNat []
    have hauto : exec (.drbgGenerate g n) s = .next ((s1.setDrbg g p.2).ret .ok p.1 []) :=
      exec_drbgGenerate_of_call ho hg
        (State.drbgGenerate_reseeded (Drbg.refuses_eq_none.mpr ⟨hv, hn, hc⟩) (decide_eq_true hdue) he)
    let u := (({ s1 with in0 := e, in1 := [] } : State).setDrbg g ((s.drbgAt g).reseed e)).ret .ok [] []
    have hreseed : exec (.drbgReseed g) { s1 with in0 := e, in1 := [] } = .next u := by
      rw [exec_drbgReseed (s := { s1 with in0 := e, in1 := [] }) ho1 hg1 (hd1 ▸ hv)]
      show Host.Outcome.next ((State.setDrbg _ g ((s1.drbgAt g).reseed (e ++ []))).ret _ _ _) = _
      rw [List.append_nil, hd1]
    have hexplicit : exec (.drbgGenerate g n) { u with in0 := [] } =
        .next ((({ u with in0 := [] } : State).setDrbg g p.2).ret .ok p.1 []) :=
      exec_drbgGenerate_of_call ho1 hg1
        (State.drbgGenerate_afterReseed (hcfg ▸ hl) (State.drbgAt_setDrbg_self s1 g _) hv hn hth)
    have hfile : s1.drbg.set g.toNat p.2 g.isLt = (u.drbg.set g.toNat p.2 g.isLt) :=
      congrArg State.drbg (State.setDrbg_setDrbg s1 g _ p.2).symm
    exact ⟨_, u, _, hauto, hreseed, rfl, hexplicit, rfl, rfl, rfl, hfile, rfl, rfl⟩
  · have hlen := (((s.drbgAt g).reseed e).produce_spec n.toNat []).1
    have hfile : s1.drbg = s.drbg := (State.trngBytes_sameButNoise he).keeps (P := fun t => t.drbg = s.drbg) rfl
    have hexec := exec_drbgGenerate_of_call ho hg
      (State.drbgGenerate_reseeded (addl := s.in0) (Drbg.refuses_eq_none.mpr ⟨hv, hn, hc⟩) (decide_eq_true hdue) he)
    simp only [Drbg.produce_reseed_eq] at hlen hexec
    refine ⟨hlen, ?_⟩
    rw [← hfile]
    exact hexec
  · have hexec := exec_drbgGenerate_of_call ho hg
      (State.drbgGenerate_noEntropy (addl := s.in0) (Drbg.refuses_eq_none.mpr ⟨hv, hn, hc⟩) (decide_eq_true hdue) he)
    have hfile : s1.drbg = s.drbg := (State.trngBytes_sameButNoise he).keeps (P := fun t => t.drbg = s.drbg) rfl
    exact ⟨_, hexec, rfl, rfl, hfile⟩

end Sys2Proof.Machine
end

section
/-! SUPPORT. `RAND_BYTES` (R222): its loop is the generate calls of its pieces, and without an auto-reseed each call is
answered and counts one. -/

namespace Sys2Proof.Machine

/-! The pieces -/

theorem randPieces_zero : randPieces 0 = [] := rfl

/-- The first piece, and the pieces of what is then still to come. -/
theorem randPieces_of_pos {n : Nat} (h : 0 < n) : randPieces n = min 937 n :: randPieces (n - min 937 n) := by
  rcases Nat.lt_or_ge n 937 with hlt | hge
  · rw [Nat.min_eq_right hlt.le, Nat.sub_self, randPieces_zero]
    simp [randPieces, Nat.div_eq_of_lt hlt, Nat.mod_eq_of_lt hlt, h.ne']
  · obtain ⟨m, rfl⟩ := Nat.exists_eq_add_of_le hge
    rw [Nat.min_eq_left hge, Nat.add_sub_cancel_left]
    simp only [randPieces, Nat.add_div_left m (by decide : 0 < 937), Nat.add_mod_left, List.replicate_succ,
      List.cons_append]

theorem le_of_mem_randPieces {n size : Nat} (h : size ∈ randPieces n) : size ≤ 937 := by
  rcases List.mem_append.mp h with h | h
  · exact (List.eq_of_mem_replicate h).le
  · split at h
    · simp at h
    · obtain rfl := List.mem_singleton.mp h
      omega

theorem randPieces_length (n : Nat) : (randPieces n).length = (n + 936) / 937 := by
  rw [randPieces, List.length_append, List.length_replicate]
  split <;> simp only [List.length_nil, List.length_singleton] <;> omega

theorem randPieces_sum (n : Nat) : (randPieces n).sum = n := by
  rw [randPieces, List.sum_append, List.sum_replicate, smul_eq_mul]
  split <;> simp only [List.sum_nil, List.sum_singleton] <;> omega

/-! A sequence of calls -/

/-- What a sequence of calls answers after one that gave the bytes `part`: they come first, and only with `OK`. -/
def withOutput (part : Bytes) (all : Result × Bytes × State) : Result × Bytes × State :=
  (all.1, if all.1 = .ok then part ++ all.2.1 else [], all.2.2)

theorem withOutput_withOutput (a b : Bytes) (all : Result × Bytes × State) :
    withOutput a (withOutput b all) = withOutput (a ++ b) all := by
  unfold withOutput
  split <;> simp_all

section Calls

variable {s s1 : State} {size : Nat} {part : Bytes}

theorem State.generateAll_cons_of_ok (h : s.drbgGenerate 0 size [] = (.ok, part, s1)) (sizes : List Nat) :
    s.generateAll (size :: sizes) = withOutput part (s1.generateAll sizes) := by
  rcases hr : s1.generateAll sizes with ⟨code, rest, s2⟩
  cases code <;> simp only [State.generateAll, h, hr, withOutput, if_true, reduceCtorEq, if_false]

theorem State.generateAll_singleton_of_ok (h : s.drbgGenerate 0 size [] = (.ok, part, s1)) :
    s.generateAll [size] = (.ok, part, s1) := by
  rw [State.generateAll_cons_of_ok h, State.generateAll, withOutput, if_pos rfl, List.append_nil]

theorem State.generateAll_cons_of_ne {code : Result} (h : s.drbgGenerate 0 size [] = (code, part, s1)) (hc : code ≠ .ok)
    (sizes : List Nat) : s.generateAll (size :: sizes) = (code, [], s1) := by
  rw [State.generateAll, h]
  cases code with
  | ok => exact absurd rfl hc
  | fail | retry | reseedNeeded => rfl

end Calls

/-- A sequence of calls that is not `OK` answers no bytes. -/
theorem State.withOutput_nil_generateAll (s : State) (sizes : List Nat) :
    withOutput [] (s.generateAll sizes) = s.generateAll sizes := by
  cases sizes with
  | nil => rfl
  | cons size sizes =>
    rcases h : s.drbgGenerate 0 size [] with ⟨code, part, s1⟩
    by_cases hc : code = .ok
    · rw [State.generateAll_cons_of_ok (hc ▸ h), withOutput_withOutput, List.nil_append]
    · rw [State.generateAll_cons_of_ne h hc, withOutput, if_neg hc]

/-- The loop of R222 with enough fuel makes the calls of the pieces. -/
theorem State.randLoop_eq {fuel rest : Nat} (hfuel : rest ≤ fuel) (out : Bytes) (s : State) :
    State.randLoop fuel rest out s = withOutput out (s.generateAll (randPieces rest)) := by
  have hdone (out : Bytes) (s : State) : withOutput out (s.generateAll (randPieces 0)) = (.ok, out, s) := by
    simp [withOutput, randPieces_zero, State.generateAll]
  induction fuel generalizing rest out s with
  | zero => rw [Nat.le_zero.mp hfuel, State.randLoop, hdone]
  | succ fuel ih =>
    rcases Nat.eq_zero_or_pos rest with rfl | hpos
    · rw [State.randLoop, if_pos rfl, hdone]
    · rw [State.randLoop, if_neg hpos.ne', randPieces_of_pos hpos]
      have hleft : rest - min 937 rest ≤ fuel := by omega
      rcases h : s.drbgGenerate 0 (min 937 rest) [] with ⟨code, part, s1⟩
      by_cases hc : code = .ok
      · subst hc
        rw [State.generateAll_cons_of_ok h, withOutput_withOutput, ← ih hleft]
        simp only [Config.drbgMaxOut, h]
      · rw [State.generateAll_cons_of_ne h hc, withOutput, if_neg hc]
        simp only [Config.drbgMaxOut, h]

/-! The command -/

theorem State.ensureSingleton_live {s : State} (hv : (s.drbgAt 0).cookie = .valid) : s.ensureSingleton = (true, s) := by
  rw [State.ensureSingleton, if_pos hv]

/-- A singleton that is not live is instantiated from the two strings (R222). -/
theorem State.ensureSingleton_fresh {s s1 s2 : State} {e m : Bytes} (hv : (s.drbgAt 0).cookie = .invalid)
    (he : s.trngBytes s.cfg.entropyBytes = (some e, s1)) (hm : s1.trngBytes s.cfg.nonceBytes = (some m, s2)) :
    s.ensureSingleton = (true, s2.setDrbg 0 (Drbg.instantiate (e ++ m) s.cfg.defaultThreshold)) := by
  simp only [State.ensureSingleton, hv, he, hm, reduceCtorEq, if_false]

/-- Without one of the two strings there is no generator (R222). -/
theorem State.ensureSingleton_noEntropy {s s1 s2 : State} {e : Bytes} (hv : (s.drbgAt 0).cookie = .invalid)
    (h : s.trngBytes s.cfg.entropyBytes = (none, s2) ∨
      s.trngBytes s.cfg.entropyBytes = (some e, s1) ∧ s1.trngBytes s.cfg.nonceBytes = (none, s2)) :
    s.ensureSingleton = (false, s2) := by
  rcases h with he | ⟨he, hm⟩
  · simp only [State.ensureSingleton, hv, he, reduceCtorEq, if_false]
  · simp only [State.ensureSingleton, hv, he, hm, reduceCtorEq, if_false]

section Command

variable {s s1 : State} {n : BitVec 16}

theorem exec_randBytes (ho : s.cryptoAllowed = true) (hn : n.toNat ≤ s.cfg.maxBuf)
    (h : s.ensureSingleton = (true, s1)) :
    let all := s1.generateAll (randPieces n.toNat)
    exec (.randBytes n) s = .next (all.2.2.ret all.1 all.2.1 []) := by
  show Host.Outcome.next (s.gated _) = _
  rw [State.gated_open ho, if_neg (Nat.not_lt.mpr hn)]
  simp only [h, State.randLoop_eq le_rfl, State.withOutput_nil_generateAll]

theorem exec_randBytes_noEntropy (ho : s.cryptoAllowed = true) (hn : n.toNat ≤ s.cfg.maxBuf)
    (h : s.ensureSingleton = (false, s1)) : exec (.randBytes n) s = .next (s1.ret .fail [] []) := by
  show Host.Outcome.next (s.gated _) = _
  rw [State.gated_open ho, if_neg (Nat.not_lt.mpr hn)]
  simp only [h, State.fail_eq]

theorem exec_randBytes_tooLong (ho : s.cryptoAllowed = true) (hn : s.cfg.maxBuf < n.toNat) :
    exec (.randBytes n) s = .next (s.ret .fail [] []) := by
  show Host.Outcome.next (s.gated _) = _
  rw [State.gated_open ho, if_pos hn, State.fail_eq]

end Command

/-! Calls without an auto-reseed -/

theorem State.setDrbg_drbgAt_self (s : State) (g : BitVec 4) : s.setDrbg g (s.drbgAt g) = s := by
  simp [State.setDrbg, State.drbgAt]

/-- With the counter not above the threshold and below the sentinel, a call is answered without a reseed and counts one
(R216, R217). -/
theorem State.drbgGenerate_counts {s : State} {g : BitVec 4} {size : Nat} (hv : (s.drbgAt g).cookie = .valid)
    (hn : size ≤ 937) (hdue : (s.drbgAt g).reseedCounter.toNat ≤ (s.drbgAt g).reseedThreshold.toNat)
    (hc : (s.drbgAt g).reseedCounter.toNat < s.cfg.noAutoReseed.toNat) (addl : Bytes) :
    s.drbgGenerate g size addl =
        (.ok, ((s.drbgAt g).produce size addl).1, s.setDrbg g ((s.drbgAt g).produce size addl).2) ∧
      ((s.drbgAt g).produce size addl).2.reseedCounter.toNat = (s.drbgAt g).reseedCounter.toNat + 1 := by
  refine ⟨State.drbgGenerate_answered (Drbg.refuses_eq_none.mpr ⟨hv, hn, fun h => ?_⟩)
    (decide_eq_false (Nat.not_lt.mpr hdue)), ?_⟩
  · exact absurd (congrArg BitVec.toNat h) hc.ne
  · obtain ⟨-, -, -, hcount, -⟩ := (s.drbgAt g).produce_spec size addl
    have := s.cfg.noAutoReseed.isLt
    rw [hcount, BitVec.toNat_add, show (1 : Word).toNat = 1 from rfl, Nat.mod_eq_of_lt (by omega)]

/-- Calls below the threshold and the sentinel are all answered, change the singleton alone and count one each. -/
theorem State.generateAll_counts {s : State} {sizes : List Nat} (hv : (s.drbgAt 0).cookie = .valid)
    (hsizes : ∀ size ∈ sizes, size ≤ 937)
    (hdue : (s.drbgAt 0).reseedCounter.toNat + sizes.length ≤ (s.drbgAt 0).reseedThreshold.toNat + 1)
    (hc : (s.drbgAt 0).reseedCounter.toNat + sizes.length ≤ s.cfg.noAutoReseed.toNat) :
    ∃ out d, s.generateAll sizes = (.ok, out, s.setDrbg 0 d) ∧ out.length = sizes.sum ∧ d.cookie = .valid ∧
      d.reseedThreshold = (s.drbgAt 0).reseedThreshold ∧
      d.reseedCounter.toNat = (s.drbgAt 0).reseedCounter.toNat + sizes.length := by
  induction sizes generalizing s with
  | nil => exact ⟨[], s.drbgAt 0, by rw [State.setDrbg_drbgAt_self]; rfl, rfl, hv, rfl, rfl⟩
  | cons size sizes ih =>
    simp only [List.length_cons] at hdue hc
    obtain ⟨hcall, hcount⟩ := State.drbgGenerate_counts hv (hsizes size List.mem_cons_self) (by omega) (by omega) []
    obtain ⟨hlen, -, -, -, hth, hcookie⟩ := (s.drbgAt 0).produce_spec size []
    generalize (s.drbgAt 0).produce size [] = p at *
    obtain ⟨out, d, hall, hout, hdv, hdth, hdcount⟩ := ih (s := s.setDrbg 0 p.2)
      (by rw [State.drbgAt_setDrbg_self, hcookie, hv]) (fun size h => hsizes size (List.mem_cons_of_mem _ h))
      (by rw [State.drbgAt_setDrbg_self, hcount, hth]; omega)
      (by rw [State.drbgAt_setDrbg_self, hcount, State.setDrbg_cfg]; omega)
    rw [State.drbgAt_setDrbg_self] at hdth hdcount
    refine ⟨p.1 ++ out, d, ?_, ?_, hdv, hdth.trans hth, ?_⟩
    · rw [State.generateAll_cons_of_ok hcall, hall, withOutput, if_pos rfl, State.setDrbg_setDrbg]
    · rw [List.length_append, hlen, hout, List.sum_cons]
    · rw [hdcount, hcount, List.length_cons]
      omega

/-- A single piece is what `DRBG_GENERATE g0` with empty `IN0` answers (R215, R222). -/
theorem exec_drbgGenerate_onePiece {s : State} {n : Nat} {out : Bytes} {d : Drbg} (ho : s.cryptoAllowed = true)
    (hg : 0 < s.cfg.nDrbg) (hpos : 0 < n) (hn : n ≤ 937) (hv : (s.drbgAt 0).cookie = .valid)
    (hdue : (s.drbgAt 0).reseedCounter.toNat ≤ (s.drbgAt 0).reseedThreshold.toNat)
    (hc : (s.drbgAt 0).reseedCounter.toNat < s.cfg.noAutoReseed.toNat)
    (hall : s.generateAll (randPieces n) = (.ok, out, s.setDrbg 0 d)) :
    exec (.drbgGenerate 0 (BitVec.ofNat 16 n)) { s with in0 := [] } =
      .next ((({ s with in0 := [] } : State).setDrbg 0 d).ret .ok out []) := by
  have hone : randPieces n = [n] := by
    rw [randPieces_of_pos hpos, Nat.min_eq_right hn, Nat.sub_self, randPieces_zero]
  have htoNat : (BitVec.ofNat 16 n).toNat = n := by
    rw [BitVec.toNat_ofNat, Nat.mod_eq_of_lt (by omega)]
  rw [hone, State.generateAll_singleton_of_ok (State.drbgGenerate_counts hv hn hdue hc []).1] at hall
  obtain ⟨-, hrest⟩ := Prod.mk.inj hall
  obtain ⟨hout, hset⟩ := Prod.mk.inj hrest
  have hd : ((s.drbgAt 0).produce n []).2 = d := by
    calc ((s.drbgAt 0).produce n []).2 = (s.setDrbg 0 ((s.drbgAt 0).produce n []).2).drbgAt 0 :=
          (State.drbgAt_setDrbg_self ..).symm
      _ = d := (congrArg (State.drbgAt · 0) hset).trans (State.drbgAt_setDrbg_self ..)
  refine exec_drbgGenerate_of_call (s := { s with in0 := [] }) ho hg ?_
  rw [htoNat, ← hd, ← hout]
  exact (State.drbgGenerate_counts (s := { s with in0 := [] }) hv hn hdue hc []).1

/-- Settles O39: the loop by its pieces, the singleton by its cookie and the TRNG, and the counters by induction on the
pieces. -/
theorem randBytesAnswers : Obligations.RandBytesAnswers := by
  unfold Obligations.RandBytesAnswers
  refine ⟨fun s n ho hn hv => exec_randBytes ho hn (State.ensureSingleton_live hv),
    fun s s1 s2 n e m ho hn hv he hm => ?_,
    fun s s1 s2 n e ho hn hv h => exec_randBytes_noEntropy ho hn (State.ensureSingleton_noEntropy hv h),
    fun s n ho hn => exec_randBytes_tooLong ho hn, fun s n hv hdue hc => ?_⟩
  · have hfile : s2.drbg = s.drbg := ((State.trngBytes_sameButNoise he).trans (State.trngBytes_sameButNoise hm)).keeps
      (P := fun t => t.drbg = s.drbg) rfl
    rw [← hfile]
    exact exec_randBytes ho hn (State.ensureSingleton_fresh hv he hm)
  · obtain ⟨out, d, hall, hout, hdv, hdth, hdcount⟩ := State.generateAll_counts hv
      (fun _ => le_of_mem_randPieces (n := n)) (by rwa [randPieces_length]) (by rwa [randPieces_length])
    rw [randPieces_sum] at hout
    rw [randPieces_length] at hdcount
    simp only [hall, State.drbgAt_setDrbg_self]
    refine ⟨trivial, hout, rfl, hdv, hdth, hdcount, fun ho hg hpos hn => ?_⟩
    exact exec_drbgGenerate_onePiece ho hg hpos hn hv (by omega) (by omega) hall

end Sys2Proof.Machine
end

section
/-! SUPPORT. Generating and signing do not look at the engine lock nor at the number of tries (R84, R216, R254): with other
values there they do the same. -/

namespace Sys2Proof.Machine

/-- The state with this lock and this number of tries. -/
def State.withLockAndTries (s : State) (busy : Bool) (tries : Nat) : State :=
  { s with engineBusy := busy, cfg := { s.cfg with p256MaxTries := tries } }

theorem State.withLockAndTries_eq {s : State} {tries : Nat} (h : s.cfg.p256MaxTries = tries) (busy : Bool) :
    s.withLockAndTries busy tries = { s with engineBusy := busy } := by
  subst h
  rfl

section Unread

variable (s : State) (busy : Bool) (tries : Nat)

@[simp] theorem State.withLockAndTries_trng : (s.withLockAndTries busy tries).trng = s.trng := rfl

@[simp] theorem State.withLockAndTries_drbgAt (g : BitVec 4) :
    (s.withLockAndTries busy tries).drbgAt g = s.drbgAt g := rfl

@[simp] theorem State.withLockAndTries_noAutoReseed :
    (s.withLockAndTries busy tries).cfg.noAutoReseed = s.cfg.noAutoReseed := rfl

@[simp] theorem State.withLockAndTries_entropyBytes :
    (s.withLockAndTries busy tries).cfg.entropyBytes = s.cfg.entropyBytes := rfl

@[simp] theorem State.noiseWord_withLockAndTries :
    (s.withLockAndTries busy tries).noiseWord = (s.noiseWord.1, s.noiseWord.2.withLockAndTries busy tries) := rfl

theorem State.health_withLockAndTries (w : Word) :
    (s.withLockAndTries busy tries).health w = ((s.health w).1, (s.health w).2.withLockAndTries busy tries) := by
  rcases s.health_cases w with ⟨hr, ha, h⟩ | ⟨hbad, h⟩ <;>
    rcases (s.withLockAndTries busy tries).health_cases w with ⟨hr', ha', h'⟩ | ⟨hbad', h'⟩
  · rw [h, h']; rfl
  · exact absurd hbad' (not_or.mpr ⟨ne_true_of_eq_false hr, ne_true_of_eq_false ha⟩)
  · exact absurd hbad (not_or.mpr ⟨ne_true_of_eq_false hr', ne_true_of_eq_false ha'⟩)
  · rw [h, h']; rfl

theorem State.trngWord_withLockAndTries :
    (s.withLockAndTries busy tries).trngWord = (s.trngWord.1, s.trngWord.2.withLockAndTries busy tries) := by
  simp only [State.trngWord, State.withLockAndTries_trng, State.noiseWord_withLockAndTries,
    State.health_withLockAndTries]
  split
  · rfl
  · rcases s.noiseWord.2.health s.noiseWord.1 with ⟨_ | _, t⟩ <;> rfl

theorem State.trngWordBytes_withLockAndTries (n : Nat) :
    State.trngWordBytes n (s.withLockAndTries busy tries) =
      ((State.trngWordBytes n s).1, (State.trngWordBytes n s).2.withLockAndTries busy tries) := by
  induction n generalizing s with
  | zero => rfl
  | succ n ih =>
    simp only [State.trngWordBytes, State.trngWord_withLockAndTries]
    rcases s.trngWord with ⟨_ | w, s1⟩
    · rfl
    · simp only [ih]
      rcases State.trngWordBytes n s1 with ⟨_ | rest, s2⟩ <;> rfl

theorem State.trngBytes_withLockAndTries (n : Nat) :
    (s.withLockAndTries busy tries).trngBytes n =
      ((s.trngBytes n).1, (s.trngBytes n).2.withLockAndTries busy tries) := by
  simp only [State.trngBytes, State.trngWordBytes_withLockAndTries]
  rcases State.trngWordBytes ((n + 3) / 4) s with ⟨_ | bytes, s1⟩ <;> rfl

theorem State.drbgGenerate_withLockAndTries (g : BitVec 4) (n : Nat) (addl : Bytes) :
    (s.withLockAndTries busy tries).drbgGenerate g n addl =
      ((s.drbgGenerate g n addl).1, (s.drbgGenerate g n addl).2.1,
        (s.drbgGenerate g n addl).2.2.withLockAndTries busy tries) := by
  simp only [State.drbgGenerate, State.withLockAndTries_drbgAt, State.withLockAndTries_noAutoReseed,
    State.withLockAndTries_entropyBytes, State.trngBytes_withLockAndTries]
  cases (s.drbgAt g).refuses s.cfg.noAutoReseed n with
  | some code => rfl
  | none =>
    cases (s.drbgAt g).reseedDue with
    | false => rfl
    | true => rcases s.trngBytes s.cfg.entropyBytes with ⟨_ | e, s1⟩ <;> rfl

theorem State.signRawBlinded_withLockAndTries (k d e : Nat) :
    (s.withLockAndTries busy tries).signRawBlinded k d e =
      ((s.signRawBlinded k d e).1, (s.signRawBlinded k d e).2.withLockAndTries busy tries) := by
  simp only [State.signRawBlinded_eq]
  rfl

theorem State.signTries_withLockAndTries (g : BitVec 4) (d e n : Nat) :
    State.signTries g d e n (s.withLockAndTries busy tries) =
      (State.signTries g d e n s).withLockAndTries busy tries := by
  induction n generalizing s with
  | zero => rfl
  | succ n ih =>
    simp only [State.signTries, State.drbgGenerate_withLockAndTries]
    rcases s.drbgGenerate g 32 [] with ⟨_ | _ | _ | _, bytes, s1⟩
    case ok =>
      simp only [State.signRawBlinded_withLockAndTries]
      split
      · exact ih s1
      · rcases s1.signRawBlinded (be bytes + 1) d e with ⟨_ | rs, s2⟩
        · exact ih s2
        · rfl
    all_goals rfl

end Unread

end Sys2Proof.Machine
end

section
/-! SUPPORT. `ECDSA_SIGN_RAW` and `ECDSA_SIGN` (R253, R254): the signature as a value, one try by its outcome, and what the
commands answer. -/

namespace Sys2Proof.Machine

/-! Values (R253) -/

/-- A scalar from 1 to the order less 1 (R251 to R254). -/
theorem scalarOk_iff {k : Nat} : scalarOk k = true ↔ 1 ≤ k ∧ k < p256N := by
  simp [scalarOk, Nat.one_le_iff_ne_zero]

theorem scalarOk_eq_false {k : Nat} (h : k = 0 ∨ p256N ≤ k) : scalarOk k = false := by
  rw [← Bool.not_eq_true, scalarOk_iff]
  omega

/-- The formulas of R253 where the nonce's point is known. -/
theorem signRaw_of_point {k x1 y1 : Nat} (d e : Nat) (h : pointMul k p256G = .affine x1 y1) :
    let r := x1 % p256N
    let s := invMod k p256N * (e + r * d) % p256N
    signRaw k d e = if r = 0 ∨ s = 0 then none else some (r, s) := by
  simp only [signRaw, signRawMasked, blindedPointMul_eq, unmask_eq, h]

/-! The frame of a P256 command (R84) -/

theorem State.p256Command_open {s : State} (ho : s.cryptoAllowed = true) (body : State → State) :
    s.p256Command body = { body { s with engineBusy := true } with engineBusy := false } :=
  State.withEngine_gated_open ho body

/-! `ECDSA_SIGN_RAW` (R253) -/

theorem exec_ecdsaSignRaw_refused {s : State} (ho : s.cryptoAllowed = true)
    (h : s.in0.length ≠ 32 ∨ s.in1.length ≠ 32 ∨ s.in2.length ≠ 32 ∨ scalarOk (be s.in0) = false ∨
      scalarOk (be s.in1) = false) : FailsUnlocked .ecdsaSignRaw s := by
  show Host.Outcome.next (s.p256Command _) = _
  rw [State.p256Command_open ho, if_pos h, State.fail_eq]
  rfl

/-- With legal operands the command answers the signature of R253, whatever the three draws are (R244). -/
theorem exec_ecdsaSignRaw {s : State} (ho : s.cryptoAllowed = true) (h0 : s.in0.length = 32) (h1 : s.in1.length = 32)
    (h2 : s.in2.length = 32) (hk : scalarOk (be s.in0) = true) (hd : scalarOk (be s.in1) = true) :
    exec .ecdsaSignRaw s = .next { s with
      engineBusy := false, env := s.env.afterDraw.afterDraw.afterDraw, out1 := [],
      out0 := (signRaw (be s.in0) (be s.in1) (be s.in2)).elim [] signatureBytes,
      res := (signRaw (be s.in0) (be s.in1) (be s.in2)).elim 2 fun _ => 0 } := by
  show Host.Outcome.next (s.p256Command _) = _
  rw [State.p256Command_open ho, if_neg (by simp [h0, h1, h2, hk, hd])]
  simp only [State.signRawBlinded_eq]
  cases signRaw (be s.in0) (be s.in1) (be s.in2) <;> rfl

/-! One try of `ECDSA_SIGN` (R254) -/

section Try

variable {s s1 : State} {g : BitVec 4} {bytes : Bytes} {d e : Nat} (t : Nat)

/-- A generate call that is not `OK` ends the tries. -/
theorem State.signTries_stopped {code : Result} (h : s.drbgGenerate g 32 [] = (code, bytes, s1)) (hc : code ≠ .ok) :
    State.signTries g d e (t + 1) s = s1.ret code [] [] := by
  cases code with
  | ok => exact absurd rfl hc
  | fail | retry | reseedNeeded => simp only [State.signTries, h]

theorem State.signTries_badCandidate (h : s.drbgGenerate g 32 [] = (.ok, bytes, s1)) (hb : p256N - 1 ≤ be bytes) :
    State.signTries g d e (t + 1) s = State.signTries g d e t s1 := by
  simp only [State.signTries, h, if_pos hb]

theorem State.signTries_zeroSignature (h : s.drbgGenerate g 32 [] = (.ok, bytes, s1)) (hb : be bytes < p256N - 1)
    (hs : signRaw (be bytes + 1) d e = none) :
    State.signTries g d e (t + 1) s =
      State.signTries g d e t { s1 with env := s1.env.afterDraw.afterDraw.afterDraw } := by
  simp only [State.signTries, h, if_neg (Nat.not_le.mpr hb), State.signRawBlinded_eq, hs]

theorem State.signTries_accepted {rs : Nat × Nat} (h : s.drbgGenerate g 32 [] = (.ok, bytes, s1))
    (hb : be bytes < p256N - 1) (hs : signRaw (be bytes + 1) d e = some rs) :
    State.signTries g d e (t + 1) s =
      ({ s1 with env := s1.env.afterDraw.afterDraw.afterDraw } : State).ret .ok (signatureBytes rs) [] := by
  simp only [State.signTries, h, if_neg (Nat.not_le.mpr hb), State.signRawBlinded_eq, hs, State.answer_eq]

end Try

theorem State.signTries_cfg (g : BitVec 4) (d e n : Nat) (s : State) : (State.signTries g d e n s).cfg = s.cfg := by
  obtain ⟨u, hu, h⟩ := State.signTries_cases g d e n s
  have hcfg := congrArg State.cfg hu.1
  rcases h with h | h | ⟨rs, h⟩ <;> rw [h] <;> exact hcfg

/-! `ECDSA_SIGN` (R254) -/

theorem exec_ecdsaSign_refused {s : State} {g : BitVec 4} (ho : s.cryptoAllowed = true)
    (h : s.isDrbgSlot g = false ∨ s.in1.length ≠ 32 ∨ s.in2.length ≠ 32 ∨ scalarOk (be s.in1) = false) :
    FailsUnlocked (.ecdsaSign g) s := by
  show Host.Outcome.next (s.p256Command _) = _
  rw [State.p256Command_open ho]
  exact (congrArg (fun t : State => Host.Outcome.next { t with engineBusy := false }) (if_pos h)).trans rfl

/-- The gate is open, and the slot, the key and the digest are such that `ECDSA_SIGN` goes on to its tries (R254). -/
structure State.CanSign (s : State) (g : BitVec 4) : Prop where
  gate : s.cryptoAllowed = true
  slot : g.toNat < s.cfg.nDrbg
  key : s.in1.length = 32
  digest : s.in2.length = 32
  scalar : scalarOk (be s.in1) = true

/-- The command is its tries, and frees the lock. -/
theorem State.CanSign.exec_eq {s : State} {g : BitVec 4} (h : s.CanSign g) :
    exec (.ecdsaSign g) s = .next ((State.signTries g (be s.in1) (be s.in2) s.cfg.p256MaxTries s).withLockAndTries false
      s.cfg.p256MaxTries) := by
  show Host.Outcome.next (s.p256Command _) = _
  rw [State.p256Command_open h.gate, if_neg (by simp [State.isDrbgSlot, h.slot, h.key, h.digest, h.scalar])]
  have htries := State.signTries_withLockAndTries s true s.cfg.p256MaxTries g (be s.in1) (be s.in2) s.cfg.p256MaxTries
  exact congrArg (fun t : State => Host.Outcome.next { t with engineBusy := false }) htries

theorem State.CanSign.exec_of_tries {s t : State} {g : BitVec 4} {n : Nat} (h : s.CanSign g)
    (hn : s.cfg.p256MaxTries = n) (ht : State.signTries g (be s.in1) (be s.in2) n s = t) :
    exec (.ecdsaSign g) s = .next { t with engineBusy := false } := by
  have hcfg : t.cfg = s.cfg := ht ▸ State.signTries_cfg ..
  rw [h.exec_eq, hn, ht, State.withLockAndTries_eq (by rw [hcfg, hn])]

/-- A try that leads on to the tries of `s1` leaves the command with one try less, on `s1`. -/
theorem State.CanSign.exec_oneTryLess {s s1 : State} {g : BitVec 4} {tries : Nat} (h : s.CanSign g) (h1 : s1.CanSign g)
    (hcfg : s1.cfg = s.cfg) (hin1 : s1.in1 = s.in1) (hin2 : s1.in2 = s.in2) (hn : s.cfg.p256MaxTries = tries + 1)
    (ht : State.signTries g (be s.in1) (be s.in2) (tries + 1) s = State.signTries g (be s.in1) (be s.in2) tries s1) :
    ∃ t, exec (.ecdsaSign g) { s1 with cfg := { s.cfg with p256MaxTries := tries } } = .next t ∧
      exec (.ecdsaSign g) s = .next { t with cfg := s.cfg } := by
  let t := State.signTries g (be s.in1) (be s.in2) tries s1
  have htcfg : t.cfg = s.cfg := (State.signTries_cfg ..).trans hcfg
  refine ⟨t.withLockAndTries false tries, ?_, ?_⟩
  · have hless : ({ s1 with cfg := { s.cfg with p256MaxTries := tries } } : State) =
        s1.withLockAndTries s1.engineBusy tries := by
      rw [← hcfg]; rfl
    have hcan : (s1.withLockAndTries s1.engineBusy tries).CanSign g := ⟨h1.gate, h1.slot, h1.key, h1.digest, h1.scalar⟩
    rw [hless, hcan.exec_eq]
    show Host.Outcome.next ((State.signTries g (be s1.in1) (be s1.in2) tries _).withLockAndTries false tries) = _
    rw [State.signTries_withLockAndTries, hin1, hin2]
    rfl
  · rw [h.exec_of_tries hn ht]
    rw [← htcfg]
    rfl

/-- A generate call that is `OK` raises nothing (R194, R216). -/
theorem State.drbgGenerate_status {s s1 : State} {g : BitVec 4} {n : Nat} {addl out : Bytes}
    (h : s.drbgGenerate g n addl = (.ok, out, s1)) : s1.fipsStatus = s.fipsStatus := by
  rcases s.drbgGenerate_cases g n addl with ⟨code, hc, h'⟩ | ⟨-, -, h'⟩ | ⟨-, -, u, -, h'⟩ | ⟨-, -, e, u, he, h'⟩ <;>
    obtain ⟨hcode, hrest⟩ := Prod.mk.inj (h.symm.trans h') <;> obtain ⟨-, hs1⟩ := Prod.mk.inj hrest <;> rw [hs1]
  · rfl
  · cases hcode
  · have hs := State.trngBytes_status he
    exact hs

theorem State.drbgGenerate_inputs {s s1 : State} {g : BitVec 4} {n : Nat} {addl out : Bytes} {code : Result}
    (h : s.drbgGenerate g n addl = (code, out, s1)) : s1.cfg = s.cfg ∧ s1.in1 = s.in1 ∧ s1.in2 = s.in2 := by
  have hf := (s.drbgGenerate_frame g n addl).1
  rw [h] at hf
  have hcfg := congrArg State.cfg hf
  have hin1 := congrArg State.in1 hf
  have hin2 := congrArg State.in2 hf
  exact ⟨hcfg, hin1, hin2⟩

/-- After a call that is `OK` the command can sign as before. -/
theorem State.CanSign.afterCall {s s1 : State} {g : BitVec 4} {bytes : Bytes} (h : s.CanSign g)
    (hcall : s.drbgGenerate g 32 [] = (.ok, bytes, s1)) : s1.CanSign g := by
  obtain ⟨hcfg, hin1, hin2⟩ := State.drbgGenerate_inputs hcall
  have hgate := State.cryptoAllowed_congr (State.drbgGenerate_status hcall)
  exact ⟨hgate.trans h.gate, hcfg ▸ h.slot, hin1 ▸ h.key, hin2 ▸ h.digest, hin1 ▸ h.scalar⟩

/-- With no try left the command fails (R254). -/
theorem exec_ecdsaSign_noTries {s : State} {g : BitVec 4} (ho : s.cryptoAllowed = true) (hn : s.cfg.p256MaxTries = 0) :
    FailsUnlocked (.ecdsaSign g) s := by
  by_cases hbad : s.isDrbgSlot g = false ∨ s.in1.length ≠ 32 ∨ s.in2.length ≠ 32 ∨ scalarOk (be s.in1) = false
  · exact exec_ecdsaSign_refused ho hbad
  · simp only [not_or, not_not, Bool.not_eq_false] at hbad
    obtain ⟨hslot, hkey, hdigest, hscalar⟩ := hbad
    have hcan : s.CanSign g := ⟨ho, of_decide_eq_true hslot, hkey, hdigest, hscalar⟩
    exact hcan.exec_of_tries (t := s.ret .fail [] []) hn rfl

/-- The 32 bytes that a generator without a reseed due generates: its next `V` (R216). -/
theorem Drbg.produce_candidate (d : Drbg) :
    d.produce 32 [] = (hmac .sha256 d.k d.v,
      { ({ d with v := hmac .sha256 d.k d.v } : Drbg).update [] with reseedCounter := d.reseedCounter + 1 }) := by
  have hlen : (hmac .sha256 d.k d.v).length ≤ 32 := (drbgHmac_length d.k d.v).le
  simp only [Drbg.produce_eq, if_true, Nat.reduceAdd, Nat.reduceDiv, List.range_one, List.flatMap_singleton, zero_add,
    Function.iterate_one, List.take_of_length_le hlen]

/-- Settles O53: `ECDSA_SIGN_RAW` by its tests and the formulas of R253, `ECDSA_SIGN` by the outcome of its first
try. -/
theorem signingAnswers : Obligations.SigningAnswers := by
  unfold Obligations.SigningAnswers
  refine ⟨fun s ho hbad => exec_ecdsaSignRaw_refused ho ?_, fun s g ho hbad => ?_,
    fun s s1 g code bytes tries ho hg h1 h2 hd hdn hn hcall => ?_,
    fun s x1 y1 ho h0 h1 h2 hk hkn hd hdn hpoint => ?_,
    fun s g r sg ho hg h1 h2 hd hdn hn hv hc hdue hb hs => ?_⟩
  · rcases hbad with h | h | h | h | h | h | h
    · exact .inl h
    · exact .inr (.inl h)
    · exact .inr (.inr (.inl h))
    · exact .inr (.inr (.inr (.inl (scalarOk_eq_false (.inl h)))))
    · exact .inr (.inr (.inr (.inl (scalarOk_eq_false (.inr h)))))
    · exact .inr (.inr (.inr (.inr (scalarOk_eq_false (.inl h)))))
    · exact .inr (.inr (.inr (.inr (scalarOk_eq_false (.inr h)))))
  · rcases hbad with h | h | h | h | h | h
    · exact exec_ecdsaSign_refused ho (.inl (State.isDrbgSlot_of_le h))
    · exact exec_ecdsaSign_refused ho (.inr (.inl h))
    · exact exec_ecdsaSign_refused ho (.inr (.inr (.inl h)))
    · exact exec_ecdsaSign_refused ho (.inr (.inr (.inr (scalarOk_eq_false (.inl h)))))
    · exact exec_ecdsaSign_refused ho (.inr (.inr (.inr (scalarOk_eq_false (.inr h)))))
    · exact exec_ecdsaSign_noTries ho h
  · have hcan : s.CanSign g := ⟨ho, hg, h1, h2, scalarOk_iff.mpr ⟨hd, hdn⟩⟩
    obtain ⟨hcfg, hin1, hin2⟩ := State.drbgGenerate_inputs hcall
    refine ⟨fun hbad => ?_, fun hv hc => ?_, ?_, ?_, ?_⟩
    · exact (hcan.exec_of_tries hn (State.signTries_stopped tries hcall hbad) :)
    · have hrefuse := Drbg.refuses_reseedNeeded (n := 32) hv (by decide)
      rw [hc] at hrefuse
      have hstop := State.signTries_stopped (d := be s.in1) (e := be s.in2) tries
        (State.drbgGenerate_refused (addl := []) hrefuse) (by decide)
      exact (hcan.exec_of_tries hn hstop :)
    · rintro rfl hb
      have hcan1 := hcan.afterCall hcall
      exact hcan.exec_oneTryLess hcan1 hcfg hin1 hin2 hn (State.signTries_badCandidate tries hcall hb)
    · rintro rfl hb hs
      have hcan1 := hcan.afterCall hcall
      exact hcan.exec_oneTryLess (s1 := { s1 with env := s1.env.afterDraw.afterDraw.afterDraw })
        ⟨hcan1.gate, hcan1.slot, hcan1.key, hcan1.digest, hcan1.scalar⟩ hcfg hin1 hin2 hn
        (State.signTries_zeroSignature tries hcall hb hs)
    · rintro r sg rfl hb hs
      exact (hcan.exec_of_tries hn (State.signTries_accepted tries hcall hb hs) :)
  · have hexec := exec_ecdsaSignRaw ho h0 h1 h2 (scalarOk_iff.mpr ⟨hk, hkn⟩) (scalarOk_iff.mpr ⟨hd, hdn⟩)
    intro r sg
    have hvalue : signRaw (be s.in0) (be s.in1) (be s.in2) = if r = 0 ∨ sg = 0 then none else some (r, sg) :=
      signRaw_of_point _ _ hpoint
    rw [hvalue] at hexec
    by_cases hz : r = 0 ∨ sg = 0
    · simp only [if_pos hz] at hexec ⊢
      exact hexec
    · simp only [if_neg hz] at hexec ⊢
      exact hexec
  · have hcan : s.CanSign g := ⟨ho, hg, h1, h2, scalarOk_iff.mpr ⟨hd, hdn⟩⟩
    obtain ⟨tries, htries⟩ := Nat.exists_eq_add_of_le' hn
    have hcall := State.drbgGenerate_answered (n := 32) (addl := []) (Drbg.refuses_eq_none.mpr ⟨hv, by decide, hc⟩)
      (decide_eq_false (Nat.not_lt.mpr hdue))
    rw [Drbg.produce_candidate] at hcall
    exact (hcan.exec_of_tries htries (State.signTries_accepted tries hcall hb hs) :)

end Sys2Proof.Machine
end

section
/-! SUPPORT. The two point multiplications and `ECDSA_VERIFY` (R251, R252, R255): what each answers for legal operands, and
which operands they refuse. -/

namespace Sys2Proof.Machine

/-! Halves of a port of 64 bytes (R86) -/

theorem slice_low (s : Bytes) : slice s 0 32 = s.take 32 := rfl

theorem slice_high {s : Bytes} (h : s.length = 64) : slice s 32 64 = s.drop 32 :=
  List.take_of_length_le (by simp [h])

theorem be_toBE_of_lt {x : Nat} (h : x < 2 ^ 256) : be (toBE x 32) = x := by
  rw [be_toBE]
  exact Nat.mod_eq_of_lt h

/-- The two numbers of a port that carries them as 32 bytes each. -/
theorem be_slices {x y : Nat} (hx : x < 2 ^ 256) (hy : y < 2 ^ 256) :
    be (slice (toBE x 32 ++ toBE y 32) 0 32) = x ∧ be (slice (toBE x 32 ++ toBE y 32) 32 64) = y := by
  have hlen : (toBE x 32).length = 32 := toBE_length x 32
  rw [slice_low, slice_high (by simp), List.take_left' hlen, List.drop_left' hlen]
  exact ⟨be_toBE_of_lt hx, be_toBE_of_lt hy⟩

/-- Numbers below `2^256` are equal when their 32 bytes are. -/
theorem toBE_inj {x y : Nat} (hx : x < 2 ^ 256) (hy : y < 2 ^ 256) : toBE x 32 = toBE y 32 ↔ x = y := by
  refine ⟨fun h => ?_, fun h => h ▸ rfl⟩
  have hbe := congrArg be h
  rwa [be_toBE_of_lt hx, be_toBE_of_lt hy] at hbe

/-! Point multiplication (R251, R252) -/

theorem onCurve_iff {x y : Nat} :
    onCurve x y = true ↔ x < p256P ∧ y < p256P ∧ (y * y + 3 * x) % p256P = (x * x * x + p256B) % p256P := by
  simp [onCurve, and_assoc]

theorem exec_p256BaseMul_refused {s : State} (ho : s.cryptoAllowed = true)
    (h : s.in0.length ≠ 32 ∨ scalarOk (be s.in0) = false) : FailsUnlocked .p256BaseMul s := by
  show Host.Outcome.next (s.p256Command _) = _
  rw [State.p256Command_open ho, if_pos h, State.fail_eq]
  rfl

theorem exec_p256BaseMul {s : State} (ho : s.cryptoAllowed = true) (h0 : s.in0.length = 32)
    (hk : scalarOk (be s.in0) = true) :
    exec .p256BaseMul s = .next { s with
      engineBusy := false, env := s.env.afterDraw, out0 := (pointMul (be s.in0) p256G).bytes, out1 := [], res := 0 } := by
  show Host.Outcome.next (s.p256Command _) = _
  rw [State.p256Command_open ho, if_neg (by simp [h0, hk])]
  simp only [State.blindMul_eq, State.answer_eq]
  rfl

theorem exec_p256PointMul_refused {s : State} (ho : s.cryptoAllowed = true)
    (h : s.in0.length ≠ 32 ∨ s.in1.length ≠ 64 ∨ scalarOk (be s.in0) = false) : FailsUnlocked .p256PointMul s := by
  show Host.Outcome.next (s.p256Command _) = _
  rw [State.p256Command_open ho, if_pos h, State.fail_eq]
  rfl

/-- With operands of their lengths and a scalar in range, the point is what decides (R252). -/
theorem exec_p256PointMul {s : State} {x y : Nat} (ho : s.cryptoAllowed = true) (h0 : s.in0.length = 32)
    (h1 : s.in1.length = 64) (hk : scalarOk (be s.in0) = true) (hx : be (s.in1.take 32) = x)
    (hy : be (s.in1.drop 32) = y) :
    exec .p256PointMul s = .next (if onCurve x y then
        { s with
          engineBusy := false, env := s.env.afterDraw, out0 := (pointMul (be s.in0) (.affine x y)).bytes, out1 := [],
          res := 0 }
      else { s with engineBusy := false, out0 := [], out1 := [], res := 1 }) := by
  show Host.Outcome.next (s.p256Command _) = _
  rw [State.p256Command_open ho, if_neg (by simp [h0, h1, hk])]
  simp only [slice_low, slice_high h1, hx, hy]
  cases onCurve x y <;> simp only [State.blindMul_eq, State.answer_eq, State.fail_eq] <;> rfl

/-- Settles O51: each command by its tests; the product is the multiple, whatever the mask. -/
theorem pointMulCommands : Obligations.PointMulCommands := by
  unfold Obligations.PointMulCommands
  refine ⟨fun s ho hbad => ?_, fun s ho h1 => exec_p256PointMul_refused ho (.inr (.inl h1)),
    fun s ho h0 hk hn => exec_p256BaseMul ho h0 (scalarOk_iff.mpr ⟨hk, hn⟩),
    fun s x y ho h0 hk hn h1 hx hy => ?_⟩
  · have hscalar : s.in0.length ≠ 32 ∨ scalarOk (be s.in0) = false := hbad.imp_right scalarOk_eq_false
    exact ⟨exec_p256BaseMul_refused ho hscalar, exec_p256PointMul_refused ho (hscalar.imp_right .inr)⟩
  · have hexec := exec_p256PointMul ho h0 h1 (scalarOk_iff.mpr ⟨hk, hn⟩) hx hy
    refine ⟨fun hgood => ?_, fun hbad => ?_⟩
    · rwa [if_pos (onCurve_iff.mpr hgood)] at hexec
    · rwa [if_neg (fun h => hbad (onCurve_iff.mp h))] at hexec

/-! `ECDSA_VERIFY` (R255) -/

theorem exec_ecdsaVerify_refused {s : State} (ho : s.cryptoAllowed = true)
    (h : s.in0.length ≠ 64 ∨ s.in1.length ≠ 32 ∨ s.in2.length ≠ 64) : FailsUnlocked .ecdsaVerify s := by
  show Host.Outcome.next (s.p256Command _) = _
  rw [State.p256Command_open ho, if_pos h, State.fail_eq]
  rfl

/-- The command is a verdict on the five numbers that its ports carry. -/
theorem exec_ecdsaVerify {s : State} {qx qy e r sg : Nat} (ho : s.cryptoAllowed = true)
    (h0 : s.in0 = toBE qx 32 ++ toBE qy 32) (h1 : s.in1 = toBE e 32) (h2 : s.in2 = toBE r 32 ++ toBE sg 32)
    (hqx : qx < 2 ^ 256) (hqy : qy < 2 ^ 256) (he : e < 2 ^ 256) (hr : r < 2 ^ 256) (hsg : sg < 2 ^ 256) :
    exec .ecdsaVerify s = .next { s with
      engineBusy := false, out0 := [], out1 := [], res := if ecdsaVerifyValue qx qy e r sg then 0 else 1 } := by
  obtain ⟨hx, hy⟩ := be_slices hqx hqy
  obtain ⟨hr', hs'⟩ := be_slices hr hsg
  show Host.Outcome.next (s.p256Command _) = _
  rw [State.p256Command_open ho, if_neg (by simp [h0, h1, h2])]
  simp only [h0, h1, h2, hx, hy, hr', hs', be_toBE_of_lt he, State.verdict_eq]
  cases ecdsaVerifyValue qx qy e r sg <;> rfl

/-- The computation of R255 accepts exactly under the conditions of the rule. -/
theorem ecdsaVerifyValue_iff {qx qy e r sg : Nat} :
    ecdsaVerifyValue qx qy e r sg = true ↔
      1 ≤ r ∧ r < p256N ∧ 1 ≤ sg ∧ sg < p256N ∧ onCurve qx qy = true ∧
        ∃ x y, (pointMul (e * invMod sg p256N % p256N) p256G).add
          (pointMul (r * invMod sg p256N % p256N) (.affine qx qy)) = .affine x y ∧ x % p256N = r := by
  unfold ecdsaVerifyValue
  split
  · next h => exact ⟨nofun, fun ⟨h1, h2, h3, h4, _⟩ => by omega⟩
  next hrange =>
  simp only [not_or, Nat.not_le] at hrange
  obtain ⟨hr, hrn, hs, hsn⟩ := hrange
  have hN : p256N < 2 ^ 256 := by decide
  cases hc : onCurve qx qy with
  | false => simp
  | true =>
    rcases hsum : (pointMul (e * invMod sg p256N % p256N) p256G).add
      (pointMul (r * invMod sg p256N % p256N) (.affine qx qy)) with _ | ⟨x, y⟩
    · simp [hsum]
    · have hx : x % p256N < p256N := Nat.mod_lt _ (by decide)
      have hequals : equals (toBE (x % p256N) 32) (toBE r 32) 32 = true ↔ x % p256N = r :=
        (equals_iff _ _ 32 (toBE_length ..) (toBE_length ..)).trans (toBE_inj (by omega) (by omega))
      simp [hsum, hequals, hrn, hsn, Nat.one_le_iff_ne_zero, hr, hs]

/-- Settles O54: the command is the verdict of `ecdsaVerifyValue`, which accepts under the conditions of the rule. -/
theorem ecdsaVerifyAnswers : Obligations.EcdsaVerifyAnswers := by
  unfold Obligations.EcdsaVerifyAnswers
  refine ⟨fun s ho hbad => exec_ecdsaVerify_refused ho hbad, fun s qx qy e r sg ho h0 h1 h2 hqx hqy he hr hsg => ?_⟩
  refine ⟨_, exec_ecdsaVerify ho h0 h1 h2 hqx hqy he hr hsg, ?_, ?_⟩
  · cases ecdsaVerifyValue qx qy e r sg <;> simp
  · have hverdict : (if ecdsaVerifyValue qx qy e r sg then 0 else 1 : BitVec 8) = 0 ↔
        ecdsaVerifyValue qx qy e r sg = true := by
      cases ecdsaVerifyValue qx qy e r sg <;> decide
    rw [hverdict, ecdsaVerifyValue_iff, onCurve_iff]
    simp only [and_assoc]

end Sys2Proof.Machine
end

section
/-! SUPPORT. `P256_KEY_FROM_BYTES` (R250, R256): one try of the pairwise test by its outcome, and what the command answers
after the tries. -/

namespace Sys2Proof.Machine

/-! One try of the pairwise test (R256) -/

section Try

variable {s : State} {d : Nat} {q : Point} (t : Nat)

theorem State.pairwiseTries_badCandidate (hc : p256N - 1 ≤ s.env.afterDraw.nextDraw % 2 ^ 256) :
    State.pairwiseTries d q (t + 1) s = State.pairwiseTries d q t { s with env := s.env.afterDraw.afterDraw } :=
  if_pos hc

theorem State.pairwiseTries_zeroSignature (hc : s.env.afterDraw.nextDraw % 2 ^ 256 < p256N - 1)
    (hs : signRaw (s.env.afterDraw.nextDraw % 2 ^ 256 + 1) d (s.env.nextDraw % 2 ^ 256) = none) :
    State.pairwiseTries d q (t + 1) s = State.pairwiseTries d q t
      { s with env := s.env.afterDraw.afterDraw.afterDraw.afterDraw.afterDraw } := by
  refine (if_neg (Nat.not_le.mpr hc)).trans ?_
  simp only [State.signRawBlinded_eq, hs]

theorem State.pairwiseTries_accepted {x y r sg : Nat} (hc : s.env.afterDraw.nextDraw % 2 ^ 256 < p256N - 1)
    (hs : signRaw (s.env.afterDraw.nextDraw % 2 ^ 256 + 1) d (s.env.nextDraw % 2 ^ 256) = some (r, sg)) :
    State.pairwiseTries d (.affine x y) (t + 1) s = (ecdsaVerifyValue x y (s.env.nextDraw % 2 ^ 256) r sg,
      { s with env := s.env.afterDraw.afterDraw.afterDraw.afterDraw.afterDraw }) := by
  refine (if_neg (Nat.not_le.mpr hc)).trans ?_
  simp only [State.signRawBlinded_eq, hs]

end Try

/-- The tries look neither at the lock nor at the parameter from which their number comes. -/
theorem State.pairwiseTries_withLockAndTries (s : State) (busy : Bool) (tries d : Nat) (q : Point) (n : Nat) :
    State.pairwiseTries d q n (s.withLockAndTries busy tries) =
      ((State.pairwiseTries d q n s).1, (State.pairwiseTries d q n s).2.withLockAndTries busy tries) := by
  induction n generalizing s with
  | zero => rfl
  | succ n ih =>
    let u := (s.draw 256).2
    have hdraws : ∀ v : State, (v.withLockAndTries busy tries).draw 256 =
        ((v.draw 256).1, (v.draw 256).2.withLockAndTries busy tries) := fun _ => rfl
    simp only [State.pairwiseTries, hdraws, State.signRawBlinded_withLockAndTries]
    split
    · exact ih (u.draw 256).2
    · rcases (u.draw 256).2.signRawBlinded ((u.draw 256).1 + 1) d (s.draw 256).1 with ⟨_ | ⟨r, sg⟩, s3⟩
      · exact ih s3
      · cases q <;> rfl

theorem State.SameButDraws.cfg_eq {s t : State} (h : s.SameButDraws t) : t.cfg = s.cfg := by
  unfold State.SameButDraws at h
  rw [h]

theorem State.pairwiseTries_cfg (d : Nat) (q : Point) (n : Nat) (s : State) :
    (State.pairwiseTries d q n s).2.cfg = s.cfg :=
  (State.pairwiseTries_frame d q n s).cfg_eq

/-! The command (R250) -/

/-- What the command answers after the pairwise test of the key `d` with the point `q`. -/
def keyAnswer (d : Nat) (q : Point) : Bool × State → State
  | (false, s) => (s.raiseFatal errEcdsa).fail
  | (true, s) => s.ret .ok (toBE d 32) q.bytes

/-- The command's end after at most `n` tries of the pairwise test. -/
def State.keyTries (d : Nat) (q : Point) (n : Nat) (s : State) : State := keyAnswer d q (State.pairwiseTries d q n s)

theorem State.keyTries_withLockAndTries (s : State) (busy : Bool) (tries d : Nat) (q : Point) (n : Nat) :
    State.keyTries d q n (s.withLockAndTries busy tries) = (State.keyTries d q n s).withLockAndTries busy tries := by
  rw [State.keyTries, State.keyTries, State.pairwiseTries_withLockAndTries]
  rcases State.pairwiseTries d q n s with ⟨_ | _, u⟩ <;> rfl

theorem State.keyTries_cfg (d : Nat) (q : Point) (n : Nat) (s : State) : (State.keyTries d q n s).cfg = s.cfg := by
  rw [← State.pairwiseTries_cfg d q n s, State.keyTries]
  rcases State.pairwiseTries d q n s with ⟨_ | _, u⟩ <;> rfl

theorem exec_p256KeyFromBytes_refused {s : State} (ho : s.cryptoAllowed = true) (h : s.in0.length ≠ 32) :
    FailsUnlocked .p256KeyFromBytes s := by
  show Host.Outcome.next (s.p256Command _) = _
  rw [State.p256Command_open ho, if_pos h, State.fail_eq]
  rfl

theorem exec_p256KeyFromBytes_retry {s : State} (ho : s.cryptoAllowed = true) (h0 : s.in0.length = 32)
    (hc : p256N - 1 ≤ be s.in0) :
    exec .p256KeyFromBytes s = .next { s with engineBusy := false, out0 := [], out1 := [], res := 2 } := by
  show Host.Outcome.next (s.p256Command _) = _
  rw [State.p256Command_open ho, if_neg (not_not.mpr h0)]
  exact congrArg (fun t : State => Host.Outcome.next { t with engineBusy := false }) (if_pos hc)

/-- The gate is open and the seed gives a key (R250). -/
structure State.CanMakeKey (s : State) : Prop where
  gate : s.cryptoAllowed = true
  seed : s.in0.length = 32
  candidate : be s.in0 < p256N - 1

/-- The public key of the seed. -/
def State.seedPoint (s : State) : Point := pointMul (be s.in0 + 1) p256G

theorem State.CanMakeKey.exec_eq {s : State} (h : s.CanMakeKey) :
    exec .p256KeyFromBytes s = .next { keyAnswer (be s.in0 + 1) s.seedPoint
      (({ s with engineBusy := true, env := s.env.afterDraw } : State).pairwise (be s.in0 + 1) s.seedPoint) with
      engineBusy := false } := by
  show Host.Outcome.next (s.p256Command _) = _
  rw [State.p256Command_open h.gate, if_neg (not_not.mpr h.seed)]
  refine congrArg (fun t : State => Host.Outcome.next { t with engineBusy := false }) ?_
  refine (if_neg (Nat.not_le.mpr h.candidate)).trans ?_
  simp only [State.blindMul_eq]
  rfl


theorem State.injected_errEcdsa (s : State) : s.injected errEcdsa = s.fipsInject.getLsbD 7 := by
  have hbit := BitVec.and_twoPow (s.fipsInject.setWidth 32) 7
  rw [BitVec.getLsbD_setWidth] at hbit
  rw [State.injected, show errEcdsa = BitVec.twoPow 32 7 from rfl, hbit]
  cases s.fipsInject.getLsbD 7 <;> rfl

/-- Where no good try can come, the failure is fatal (R256, R394). -/
theorem State.CanMakeKey.exec_fatal {s : State} (h : s.CanMakeKey)
    (hbad : s.fipsInject.getLsbD 7 = true ∨ s.cfg.p256MaxTries = 0) :
    exec .p256KeyFromBytes s = .next { s with
      engineBusy := false, env := s.env.afterDraw, fipsStatus := s.fipsStatus ||| 0x80, pwrupDonePersist := false,
      out0 := [], out1 := [], res := 1 } := by
  let u : State := { s with engineBusy := true, env := s.env.afterDraw }
  have hpair : u.pairwise (be s.in0 + 1) s.seedPoint = (false, u) := by
    rw [State.pairwise, State.injected_errEcdsa]
    rcases hbad with hinj | hn
    · exact if_pos hinj
    · show (if s.fipsInject.getLsbD 7 = true then _ else State.pairwiseTries _ _ s.cfg.p256MaxTries u) = _
      rw [hn]
      exact ite_self _
  rw [h.exec_eq, hpair]
  rfl

/-- With no failure injected the command is its tries, and frees the lock. -/
theorem State.CanMakeKey.exec_tries {s : State} (h : s.CanMakeKey) (hinj : s.fipsInject.getLsbD 7 = false) :
    exec .p256KeyFromBytes s = .next ((State.keyTries (be s.in0 + 1) s.seedPoint s.cfg.p256MaxTries
      { s with env := s.env.afterDraw }).withLockAndTries false s.cfg.p256MaxTries) := by
  let u : State := { s with env := s.env.afterDraw }
  have hpair : (u.withLockAndTries true s.cfg.p256MaxTries).pairwise (be s.in0 + 1) s.seedPoint =
      State.pairwiseTries (be s.in0 + 1) s.seedPoint s.cfg.p256MaxTries
        (u.withLockAndTries true s.cfg.p256MaxTries) := by
    rw [State.pairwise, State.injected_errEcdsa]
    exact if_neg (ne_true_of_eq_false hinj)
  have hend := State.keyTries_withLockAndTries u true s.cfg.p256MaxTries (be s.in0 + 1) s.seedPoint s.cfg.p256MaxTries
  rw [State.keyTries, ← hpair] at hend
  exact h.exec_eq.trans (congrArg (fun t : State => Host.Outcome.next { t with engineBusy := false }) hend)

/-- A try that is rejected leaves the command as it is with one try less, on the inputs `env` whose draws after the first are
those after the try. -/
theorem State.CanMakeKey.exec_oneTryLess {s : State} {tries : Nat} {env : Env} (h : s.CanMakeKey)
    (hinj : s.fipsInject.getLsbD 7 = false) (hn : s.cfg.p256MaxTries = tries + 1)
    (ht : State.pairwiseTries (be s.in0 + 1) s.seedPoint (tries + 1) { s with env := s.env.afterDraw } =
      State.pairwiseTries (be s.in0 + 1) s.seedPoint tries { s with env := env.afterDraw }) :
    ∃ t, exec .p256KeyFromBytes { s with cfg := { s.cfg with p256MaxTries := tries }, env := env } = .next t ∧
      exec .p256KeyFromBytes s = .next { t with cfg := s.cfg } := by
  let less : State := ({ s with env := env } : State).withLockAndTries s.engineBusy tries
  let t := State.keyTries (be s.in0 + 1) s.seedPoint tries { s with env := env.afterDraw }
  refine ⟨t.withLockAndTries false tries, ?_, ?_⟩
  · have hless : less.CanMakeKey := ⟨h.gate, h.seed, h.candidate⟩
    have hend := State.keyTries_withLockAndTries { s with env := env.afterDraw } s.engineBusy tries (be s.in0 + 1)
      s.seedPoint tries
    have hfree := congrArg (State.withLockAndTries · false tries) hend
    exact (hless.exec_tries hinj).trans (congrArg Host.Outcome.next hfree)
  · have htries : State.keyTries (be s.in0 + 1) s.seedPoint (tries + 1) { s with env := s.env.afterDraw } = t :=
      congrArg (keyAnswer _ _) ht
    have hcfg : t.cfg = s.cfg := State.keyTries_cfg ..
    rw [h.exec_tries hinj, hn, htries, State.withLockAndTries_eq (hcfg ▸ hn), ← hcfg]
    rfl

/-- A first try that is accepted and verifies gives the key pair. -/
theorem State.CanMakeKey.exec_accepted {s u : State} {x y tries : Nat} (h : s.CanMakeKey)
    (hinj : s.fipsInject.getLsbD 7 = false) (hn : s.cfg.p256MaxTries = tries) (hq : s.seedPoint = .affine x y)
    (ht : State.pairwiseTries (be s.in0 + 1) (.affine x y) tries { s with env := s.env.afterDraw } = (true, u)) :
    exec .p256KeyFromBytes s = .next { u with
      engineBusy := false, out0 := toBE (be s.in0 + 1) 32, out1 := toBE x 32 ++ toBE y 32, res := 0 } := by
  have hcfg : u.cfg = s.cfg := by
    have hcfg := State.pairwiseTries_cfg (be s.in0 + 1) (.affine x y) tries { s with env := s.env.afterDraw }
    rwa [ht] at hcfg
  rw [h.exec_tries hinj, hn, hq, State.keyTries, ht, State.withLockAndTries_eq]
  · rfl
  · exact (congrArg Config.p256MaxTries hcfg).trans hn

/-- Settles O52: the command is its tries, and each clause is the outcome of the first of them. -/
theorem keyFromBytesAnswers : Obligations.KeyFromBytesAnswers := by
  unfold Obligations.KeyFromBytesAnswers
  refine ⟨fun s ho h0 => exec_p256KeyFromBytes_refused ho h0, fun s ho h0 hc => exec_p256KeyFromBytes_retry ho h0 hc,
    fun s ho h0 hc hbad => State.CanMakeKey.exec_fatal ⟨ho, h0, hc⟩ hbad,
    fun s tries m0 e c used rest ho h0 hc hinj hn hdraws htry => ?_,
    fun s m0 e c m1 m2 m3 x y r sg rest ho h0 hc hinj hn hdraws hcand hq hs hv => ?_⟩
  · have hcan : s.CanMakeKey := ⟨ho, h0, hc⟩
    have hcand : s.env.afterDraw.afterDraw.nextDraw = c := by simp [Env.nextDraw, hdraws]
    have hdigest : s.env.afterDraw.nextDraw = e := by simp [Env.nextDraw, hdraws]
    refine hcan.exec_oneTryLess hinj hn ?_
    rcases htry with ⟨hbad, rfl⟩ | ⟨hgood, hused, hs⟩
    · rw [State.pairwiseTries_badCandidate tries (by simpa only [hcand] using hbad)]
      simp [Env.afterDraw, hdraws]
    · rw [State.pairwiseTries_zeroSignature tries (by simpa only [hcand] using hgood)
        (by simpa only [hcand, hdigest] using hs)]
      obtain ⟨a, b, d, rfl⟩ := List.length_eq_three.mp hused
      simp [Env.afterDraw, hdraws]
  · obtain ⟨tries, htries⟩ := Nat.exists_eq_add_of_le' hn
    have hcandDraw : s.env.afterDraw.afterDraw.nextDraw = c := by simp [Env.nextDraw, hdraws]
    have hdigest : s.env.afterDraw.nextDraw = e := by simp [Env.nextDraw, hdraws]
    have hcan : s.CanMakeKey := ⟨ho, h0, hc⟩
    have ht := State.pairwiseTries_accepted (s := { s with env := s.env.afterDraw }) (d := be s.in0 + 1) (x := x) (y := y)
      (r := r) (sg := sg) tries (by simpa only [hcandDraw] using hcand) (by simpa only [hcandDraw, hdigest] using hs)
    simp only [hdigest, hv] at ht
    rw [hcan.exec_accepted hinj htries hq ht]
    simp [Env.afterDraw, hdraws]

end Sys2Proof.Machine
end

section
/-! SUPPORT. The draws to come have no effect but on the draws to come (R244, R258): states that differ in them alone still
do so after a generate call, after the tries of `ECDSA_SIGN`, and after a point multiplication. -/

namespace Sys2Proof.Machine

/-- The state with other draws to come. -/
def State.withDraws (s : State) (draws : List Nat) (count : Nat) : State :=
  { s with env := { s.env with draws := draws, drawCount := count } }

/-! Operations that do not look at the draws (R194, R216) -/

section Unread

variable (s : State) (draws : List Nat) (count : Nat)

@[simp] theorem State.withDraws_cfg : (s.withDraws draws count).cfg = s.cfg := rfl

@[simp] theorem State.withDraws_trng : (s.withDraws draws count).trng = s.trng := rfl

@[simp] theorem State.withDraws_drbgAt (g : BitVec 4) : (s.withDraws draws count).drbgAt g = s.drbgAt g := rfl

@[simp] theorem State.noiseWord_withDraws :
    (s.withDraws draws count).noiseWord = (s.noiseWord.1, s.noiseWord.2.withDraws draws count) := rfl

/-- Both branches of the health step keep the draws, and its test does not see them. -/
theorem State.health_withDraws (w : Word) :
    (s.withDraws draws count).health w = ((s.health w).1, (s.health w).2.withDraws draws count) := by
  unfold State.health
  symm
  apply apply_ite fun p : Bool × State => (p.1, p.2.withDraws draws count)

theorem State.trngWord_withDraws :
    (s.withDraws draws count).trngWord = (s.trngWord.1, s.trngWord.2.withDraws draws count) := by
  simp only [State.trngWord, State.withDraws_trng, State.noiseWord_withDraws, State.health_withDraws]
  split
  · rfl
  · rcases s.noiseWord.2.health s.noiseWord.1 with ⟨_ | _, t⟩ <;> rfl

theorem State.trngWordBytes_withDraws (n : Nat) :
    State.trngWordBytes n (s.withDraws draws count) =
      ((State.trngWordBytes n s).1, (State.trngWordBytes n s).2.withDraws draws count) := by
  induction n generalizing s with
  | zero => rfl
  | succ n ih =>
    simp only [State.trngWordBytes, State.trngWord_withDraws]
    rcases s.trngWord with ⟨_ | w, s1⟩
    · rfl
    · simp only [ih]
      rcases State.trngWordBytes n s1 with ⟨_ | rest, s2⟩ <;> rfl

theorem State.trngBytes_withDraws (n : Nat) :
    (s.withDraws draws count).trngBytes n = ((s.trngBytes n).1, (s.trngBytes n).2.withDraws draws count) := by
  simp only [State.trngBytes, State.trngWordBytes_withDraws]
  rcases State.trngWordBytes ((n + 3) / 4) s with ⟨_ | bytes, s1⟩ <;> rfl

theorem State.drbgGenerate_withDraws (g : BitVec 4) (n : Nat) (addl : Bytes) :
    (s.withDraws draws count).drbgGenerate g n addl =
      ((s.drbgGenerate g n addl).1, (s.drbgGenerate g n addl).2.1,
        (s.drbgGenerate g n addl).2.2.withDraws draws count) := by
  simp only [State.drbgGenerate, State.withDraws_drbgAt, State.withDraws_cfg, State.trngBytes_withDraws]
  cases (s.drbgAt g).refuses s.cfg.noAutoReseed n with
  | some code => rfl
  | none =>
    cases (s.drbgAt g).reseedDue with
    | false => rfl
    | true => rcases s.trngBytes s.cfg.entropyBytes with ⟨_ | e, s1⟩ <;> rfl

end Unread

/-! Operations that leave the same but for the draws (R258) -/

theorem State.sameButDraws_iff {s t : State} : s.SameButDraws t ↔ ∃ draws count, t = s.withDraws draws count :=
  ⟨fun h => ⟨_, _, h⟩, by rintro ⟨draws, count, rfl⟩; rfl⟩

/-- On states that differ in the draws alone it gives states that do. -/
def HidesDraws (f : State → State) : Prop := ∀ s t : State, s.SameButDraws t → (f s).SameButDraws (f t)

theorem hidesDraws_iff {f : State → State} :
    HidesDraws f ↔ ∀ (s : State) draws count, (f s).SameButDraws (f (s.withDraws draws count)) := by
  refine ⟨fun h s draws count => h s _ (State.sameButDraws_iff.mpr ⟨draws, count, rfl⟩), fun h s t hst => ?_⟩
  obtain ⟨draws, count, rfl⟩ := State.sameButDraws_iff.mp hst
  exact h s draws count

theorem HidesDraws.ret (r : Result) (a b : Bytes) : HidesDraws (·.ret r a b) :=
  hidesDraws_iff.mpr fun _ _ _ => rfl

theorem HidesDraws.ite {c : State → Prop} [DecidablePred c] {f g : State → State}
    (hc : ∀ (s : State) draws count, c (s.withDraws draws count) ↔ c s) (hf : HidesDraws f) (hg : HidesDraws g) :
    HidesDraws fun s => if c s then f s else g s := by
  refine hidesDraws_iff.mpr fun s draws count => ?_
  by_cases h : c s
  · simpa only [if_pos h, if_pos ((hc s draws count).mpr h)] using hidesDraws_iff.mp hf s draws count
  · simpa only [if_neg h, if_neg (mt (hc s draws count).mp h)] using hidesDraws_iff.mp hg s draws count

/-- The frame of the P256 commands hides what its body hides. -/
theorem HidesDraws.p256Command {body : State → State} (h : HidesDraws body) : HidesDraws (·.p256Command body) := by
  refine hidesDraws_iff.mpr fun s draws count => ?_
  have hgate : (s.withDraws draws count).cryptoAllowed = s.cryptoAllowed := rfl
  cases ho : s.cryptoAllowed
  · show State.SameButDraws (State.withEngine s _) (State.withEngine _ _)
    rw [State.withEngine_gated_closed ho, State.withEngine_gated_closed (hgate.trans ho)]
    rfl
  · obtain ⟨draws', count', hbody⟩ := State.sameButDraws_iff.mp
      (hidesDraws_iff.mp h { s with engineBusy := true } draws count)
    show State.SameButDraws (s.p256Command body) ((s.withDraws draws count).p256Command body)
    rw [State.p256Command_open ho, State.p256Command_open (hgate.trans ho)]
    exact State.sameButDraws_iff.mpr
      ⟨draws', count', congrArg (fun t : State => { t with engineBusy := false }) hbody⟩

/-! The commands (R251 to R254) -/

theorem State.signTries_hidesDraws (g : BitVec 4) (d e n : Nat) : HidesDraws (State.signTries g d e n) := by
  induction n with
  | zero => exact .ret .fail [] []
  | succ n ih =>
    refine hidesDraws_iff.mpr fun s draws count => ?_
    simp only [State.signTries, State.drbgGenerate_withDraws]
    rcases s.drbgGenerate g 32 [] with ⟨_ | _ | _ | _, bytes, s1⟩
    case ok =>
      simp only [State.signRawBlinded_eq]
      split
      · exact ih _ _ rfl
      · cases signRaw (be bytes + 1) d e with
        | none => exact ih _ _ rfl
        | some rs => rfl
    all_goals rfl

/-- What `exec` does with one command: a state function that hides the draws. -/
def CommandHidesDraws (i : Instr) : Prop := ∃ f, HidesDraws f ∧ ∀ s, exec i s = .next (f s)

theorem p256BaseMul_hidesDraws : CommandHidesDraws .p256BaseMul := by
  refine ⟨_, .p256Command ?_, fun _ => rfl⟩
  refine .ite (fun _ _ _ => .rfl) (.ret .fail [] []) (hidesDraws_iff.mpr fun s draws count => ?_)
  simp only [State.blindMul_eq]
  rfl

theorem p256PointMul_hidesDraws : CommandHidesDraws .p256PointMul := by
  refine ⟨_, .p256Command ?_, fun _ => rfl⟩
  refine .ite (fun _ _ _ => .rfl) (.ret .fail [] [])
    (.ite (fun _ _ _ => .rfl) (hidesDraws_iff.mpr fun s draws count => ?_) (.ret .fail [] []))
  simp only [State.blindMul_eq]
  rfl

theorem ecdsaSignRaw_hidesDraws : CommandHidesDraws .ecdsaSignRaw := by
  refine ⟨_, .p256Command ?_, fun _ => rfl⟩
  refine .ite (fun _ _ _ => .rfl) (.ret .fail [] []) (hidesDraws_iff.mpr fun s draws count => ?_)
  have hvalue : signRaw (be (s.withDraws draws count).in0) (be (s.withDraws draws count).in1)
      (be (s.withDraws draws count).in2) = signRaw (be s.in0) (be s.in1) (be s.in2) := rfl
  simp only [State.signRawBlinded_eq, hvalue]
  cases signRaw (be s.in0) (be s.in1) (be s.in2) <;> rfl

theorem ecdsaSign_hidesDraws (g : BitVec 4) : CommandHidesDraws (.ecdsaSign g) := by
  refine ⟨_, .p256Command ?_, fun _ => rfl⟩
  refine .ite (fun _ _ _ => .rfl) (.ret .fail [] []) (hidesDraws_iff.mpr fun s draws count => ?_)
  exact hidesDraws_iff.mp (State.signTries_hidesDraws g (be s.in1) (be s.in2) s.cfg.p256MaxTries) s draws count

/-- Settles O55: each of the four commands takes states that differ in the draws alone to states that do. -/
theorem blindingIsInvisible : Obligations.BlindingIsInvisible := by
  unfold Obligations.BlindingIsInvisible
  intro i hi s draws count
  have hhides : CommandHidesDraws i := by
    rcases hi with rfl | rfl | rfl | ⟨g, rfl⟩
    · exact p256BaseMul_hidesDraws
    · exact p256PointMul_hidesDraws
    · exact ecdsaSignRaw_hidesDraws
    · exact ecdsaSign_hidesDraws g
  obtain ⟨f, hf, hexec⟩ := hhides
  exact ⟨f s, f (s.withDraws draws count), hexec s, hexec _, (hf (s.withDraws draws count) s rfl).symm⟩

end Sys2Proof.Machine
end

section
/-! SUPPORT. The group law of R242 is that of the curve over the prime field: a point of the model is the pair of least
representatives of a point of Mathlib's Weierstrass curve, sums go to sums, and so doubling and repeated addition agree. -/

namespace Sys2Proof.Machine

/-- P-256 over its field (R240). -/
def p256Curve : WeierstrassCurve.Affine (ZMod p256P) := ⟨0, 0, 0, -3, (p256B : ZMod p256P)⟩

/-- The pair of least representatives of a point of the curve (R241). -/
def ofCurve : p256Curve.Point → Point
  | .zero => .infinity
  | .some x y _ => .affine x.val y.val

@[simp] theorem ofCurve_zero : ofCurve 0 = .infinity := rfl

@[simp] theorem ofCurve_some {x y : ZMod p256P} (h : p256Curve.Nonsingular x y) :
    ofCurve (.some x y h) = .affine x.val y.val := rfl

theorem ofCurve_eq_infinity {P : p256Curve.Point} : ofCurve P = .infinity ↔ P = 0 := by
  refine ⟨fun h => ?_, fun h => h ▸ rfl⟩
  cases P with
  | zero => rfl
  | some x y hP => cases h

section Field

variable [Fact p256P.Prime]

/-! Arithmetic modulo `p` (R242) -/

theorem mod_p256P_eq_val (a : Nat) : a % p256P = (a : ZMod p256P).val := (ZMod.val_natCast p256P a).symm

theorem subP_eq_val (a b : Nat) : subP a b = ((a - b : ZMod p256P)).val := by
  have hle : b % p256P ≤ p256P := (Nat.mod_lt b p256P_prime.pos).le
  rw [subP, mod_p256P_eq_val, Nat.cast_add, Nat.cast_sub hle, ZMod.natCast_self, ZMod.natCast_mod, zero_sub,
    ← sub_eq_add_neg]

theorem invMod_eq_inv {b : Nat} (hb : (b : ZMod p256P) ≠ 0) : (invMod b p256P : ZMod p256P) = (b : ZMod p256P)⁻¹ := by
  have hgcd : Nat.gcd b p256P = 1 :=
    ((p256P_prime.coprime_iff_not_dvd).mpr fun h => hb ((ZMod.natCast_eq_zero_iff b p256P).mpr h)).symm
  have hmul := mul_invMod_cast b p256P_prime.one_lt
  rw [hgcd, Nat.cast_one] at hmul
  exact (inv_eq_of_mul_eq_one_right hmul).symm

theorem divP_eq_val (a : Nat) {b : Nat} (hb : (b : ZMod p256P) ≠ 0) : divP a b = (a / b : ZMod p256P).val := by
  rw [divP, mod_p256P_eq_val, Nat.cast_mul, invMod_eq_inv hb, div_eq_mul_inv]

theorem add_val_mod_eq_zero (y1 y2 : ZMod p256P) : (y1.val + y2.val) % p256P = 0 ↔ y1 = -y2 := by
  rw [← Nat.dvd_iff_mod_eq_zero, ← ZMod.natCast_eq_zero_iff, Nat.cast_add, ZMod.natCast_zmod_val,
    ZMod.natCast_zmod_val, add_eq_zero_iff_eq_neg]

/-! The curve (R240, R241) -/

theorem p256Curve_negY (x y : ZMod p256P) : p256Curve.negY x y = -y := by
  simp [WeierstrassCurve.Affine.negY, p256Curve]

theorem p256Curve_addX (x1 x2 l : ZMod p256P) : p256Curve.addX x1 x2 l = l * l - (x1 + x2) := by
  simp only [WeierstrassCurve.Affine.addX, p256Curve]
  ring

theorem p256Curve_addY (x1 x2 y1 l : ZMod p256P) :
    p256Curve.addY x1 x2 y1 l = l * (x1 - p256Curve.addX x1 x2 l) - y1 := by
  simp only [WeierstrassCurve.Affine.addY, WeierstrassCurve.Affine.negAddY, p256Curve_negY]
  ring

theorem p256Curve_equation (x y : ZMod p256P) : p256Curve.Equation x y ↔ y * y + 3 * x = x * x * x + p256B := by
  simp only [WeierstrassCurve.Affine.equation_iff, p256Curve]
  constructor <;> intro h <;> linear_combination h

/-- The discriminant is not 0: the curve has no singular point. -/
theorem p256Curve_discriminant : p256Curve.Δ ≠ 0 := by
  have hvalue : p256Curve.Δ = -((432 * p256B ^ 2 - 1728 : Nat) : ZMod p256P) := by
    rw [Nat.cast_sub (by decide)]
    simp only [WeierstrassCurve.Δ, WeierstrassCurve.b₂, WeierstrassCurve.b₄, WeierstrassCurve.b₆, WeierstrassCurve.b₈,
      p256Curve]
    push_cast
    ring
  rw [hvalue, neg_ne_zero, Ne, ZMod.natCast_eq_zero_iff]
  decide +kernel

/-! Points -/

/-- Every point that `on_curve` accepts comes from the curve (R241). -/
theorem exists_ofCurve {x y : Nat} (h : onCurve x y = true) :
    ∃ hxy : p256Curve.Nonsingular (x : ZMod p256P) y, ofCurve (.some _ _ hxy) = .affine x y := by
  obtain ⟨hx, hy, heq⟩ := onCurve_iff.mp h
  have hcast : ((y * y + 3 * x : Nat) : ZMod p256P) = (x * x * x + p256B : Nat) :=
    (ZMod.natCast_eq_natCast_iff' _ _ _).mpr heq
  push_cast at hcast
  refine ⟨(WeierstrassCurve.Affine.equation_iff_nonsingular_of_Δ_ne_zero p256Curve_discriminant).mp
    ((p256Curve_equation _ _).mpr hcast), ?_⟩
  rw [ofCurve_some, ZMod.val_natCast_of_lt hx, ZMod.val_natCast_of_lt hy]

theorem thirdPoint_eq (l x1 y1 x2 : ZMod p256P) : thirdPoint l.val x1.val y1.val x2.val =
    .affine (p256Curve.addX x1 x2 l).val (p256Curve.addY x1 x2 y1 l).val := by
  have hx : subP (l.val * l.val) (x1.val + x2.val) = (p256Curve.addX x1 x2 l).val := by
    rw [subP_eq_val, p256Curve_addX]
    push_cast [ZMod.natCast_zmod_val]
    rfl
  simp only [thirdPoint, hx, subP_eq_val, p256Curve_addY, Nat.cast_mul, ZMod.natCast_zmod_val]

/-- The slope of the tangent (R242). -/
theorem tangent_eq {x y : ZMod p256P} (hy : y ≠ p256Curve.negY x y) :
    divP (subP (3 * x.val * x.val) 3) (2 * y.val) = (p256Curve.slope x x y y).val := by
  have hden : ((2 * y.val : Nat) : ZMod p256P) = y - p256Curve.negY x y := by
    rw [p256Curve_negY]
    push_cast [ZMod.natCast_zmod_val]
    ring
  have hnum : ((3 * x.val * x.val : Nat) : ZMod p256P) - (3 : Nat) =
      3 * x ^ 2 + 2 * p256Curve.a₂ * x + p256Curve.a₄ - p256Curve.a₁ * y := by
    simp only [p256Curve]
    push_cast [ZMod.natCast_zmod_val]
    ring
  rw [divP_eq_val _ (hden ▸ sub_ne_zero.mpr hy), WeierstrassCurve.Affine.slope_of_Y_ne rfl hy, subP_eq_val,
    ZMod.natCast_zmod_val, hnum, hden]

/-- The slope of the chord (R242). -/
theorem chord_eq {x1 x2 : ZMod p256P} (y1 y2 : ZMod p256P) (hx : x1 ≠ x2) :
    divP (subP y2.val y1.val) (subP x2.val x1.val) = (p256Curve.slope x1 x2 y1 y2).val := by
  have hne : ((subP x2.val x1.val : Nat) : ZMod p256P) ≠ 0 := by
    rw [subP_eq_val]
    simpa only [ZMod.natCast_zmod_val] using sub_ne_zero.mpr hx.symm
  rw [divP_eq_val _ hne, WeierstrassCurve.Affine.slope_of_X_ne hx, subP_eq_val, subP_eq_val]
  simp only [ZMod.natCast_zmod_val]
  rw [← neg_sub y1, ← neg_sub x1, neg_div_neg_eq]

/-- The group law of R242 is addition on the curve. -/
theorem ofCurve_add (P Q : p256Curve.Point) : (ofCurve P).add (ofCurve Q) = ofCurve (P + Q) := by
  cases P with
  | zero => exact congrArg ofCurve (zero_add Q).symm
  | some x1 y1 h1 =>
  cases Q with
  | zero => exact congrArg ofCurve (add_zero (WeierstrassCurve.Affine.Point.some x1 y1 h1)).symm
  | some x2 y2 h2 =>
    have hval (a b : ZMod p256P) : a.val = b.val ↔ a = b := (ZMod.val_injective p256P).eq_iff
    simp only [ofCurve_some, Point.add, hval, add_val_mod_eq_zero, ← p256Curve_negY x2]
    split
    · next hopp => rw [WeierstrassCurve.Affine.Point.add_of_Y_eq hopp.1 hopp.2, ofCurve_zero]
    next hopp =>
    rw [WeierstrassCurve.Affine.Point.add_some hopp, ofCurve_some]
    split
    · next hsame =>
      obtain ⟨rfl, rfl⟩ := hsame
      rw [tangent_eq fun h => hopp ⟨rfl, h⟩, thirdPoint_eq]
    · next hother =>
      have hx : x1 ≠ x2 := fun hx => (WeierstrassCurve.Affine.Y_eq_of_X_eq h1.1 h2.1 hx).elim
        (fun hy => hother ⟨hx, hy⟩) fun hy => hopp ⟨hx, hy⟩
      rw [chord_eq y1 y2 hx, thirdPoint_eq]

/-! Multiples (R242) -/

theorem pointMulFuel_ofCurve (fuel : Nat) : ∀ (k : Nat) (P : p256Curve.Point), k ≤ fuel →
    pointMulFuel fuel k (ofCurve P) = ofCurve (k • P) := by
  induction fuel with
  | zero => exact fun k P hk => by rw [Nat.le_zero.mp hk, zero_nsmul]; rfl
  | succ fuel ih =>
    intro k P hk
    by_cases h0 : k = 0
    · rw [h0, zero_nsmul]; rfl
    · have hhalf : pointMulFuel fuel (k / 2) ((ofCurve P).add (ofCurve P)) = ofCurve ((2 * (k / 2)) • P) := by
        rw [ofCurve_add, ih (k / 2) (P + P) (by omega), ← two_nsmul, ← mul_nsmul]
      simp only [pointMulFuel, if_neg h0, hhalf]
      split
      · next hodd => rw [ofCurve_add, ← succ_nsmul', show 2 * (k / 2) + 1 = k by omega]
      · next heven => rw [show 2 * (k / 2) = k by omega]

/-- The multiple by doubling is the multiple on the curve. -/
theorem pointMul_ofCurve (k : Nat) (P : p256Curve.Point) : pointMul k (ofCurve P) = ofCurve (k • P) :=
  pointMulFuel_ofCurve k k P le_rfl

/-- Adding the point again and again gives the multiple on the curve. -/
theorem iterate_add_ofCurve (k : Nat) (P : p256Curve.Point) :
    (Point.add (ofCurve P))^[k] .infinity = ofCurve (k • P) := by
  induction k with
  | zero => rw [zero_nsmul]; rfl
  | succ k ih => rw [Function.iterate_succ_apply', ih, ofCurve_add, ← succ_nsmul']

/-- A point whose multiple by `n` is `O` has its negative as the multiple by `n - 1`. -/
theorem pointMul_pred_of_order {n x y : Nat} (hn : 0 < n) (hc : onCurve x y = true)
    (h : pointMul n (.affine x y) = .infinity) : pointMul (n - 1) (.affine x y) = .affine x (subP 0 y) := by
  obtain ⟨hxy, hP⟩ := exists_ofCurve hc
  rw [← hP, pointMul_ofCurve, ofCurve_eq_infinity] at h
  have hneg : (n - 1) • WeierstrassCurve.Affine.Point.some _ _ hxy = -.some _ _ hxy :=
    eq_neg_of_add_eq_zero_left (by rw [← succ_nsmul, Nat.sub_add_cancel hn, h])
  have hy : (p256Curve.negY x y).val = subP 0 y := by
    rw [p256Curve_negY, subP_eq_val, Nat.cast_zero, zero_sub]
  rw [← hP, pointMul_ofCurve, hneg, WeierstrassCurve.Affine.Point.neg_some, ofCurve_some, hy,
    ZMod.val_natCast_of_lt (onCurve_iff.mp hc).1]

end Field

/-! The check values (R242) -/

theorem onCurve_generator : onCurve 0x6b17d1f2e12c4247f8bce6e563a440f277037d812deb33a0f4a13945d898c296
    0x4fe342e2fe1a7f9b8ee7eb4a7c0f9e162bce33576b315ececbb6406837bf51f5 = true := by
  decide

theorem pointMul_two_generator :
    pointMul 2 p256G = .affine 0x7cf27b188d034f7e8a52380304b51ac3c08969e277f21b35a60b48fc47669978
      0x07775510db8ed040293d9ac69f7430dbba7dade63ce982299e04b79d227873d1 := by
  decide +kernel

/-- The generator has the order `n` (R240). -/
theorem pointMul_order_generator : pointMul p256N p256G = .infinity := by
  decide +kernel

/-- Settles O60: doubling and repeated addition are both the multiple on the curve; `(n-1)·G` is `-G` because `n·G` is `O`. -/
theorem pointMulIsRepeatedAddition : Obligations.PointMulIsRepeatedAddition := by
  unfold Obligations.PointMulIsRepeatedAddition
  have : Fact p256P.Prime := ⟨p256P_prime⟩
  refine ⟨fun k x y hc => ?_, pointMul_two_generator, ?_, pointMul_order_generator⟩
  · obtain ⟨hxy, hP⟩ := exists_ofCurve hc
    rw [← hP, pointMul_ofCurve, iterate_add_ofCurve]
  · exact pointMul_pred_of_order (by decide) onCurve_generator pointMul_order_generator

end Sys2Proof.Machine
end

section
/-! SUPPORT. `MODEXP_PUB` and `MODEXP_BLINDED` (R282, R284), and what all six RSA commands share: the frame, the key predicate
and the blinded exponentiation, whose result is pinned by its product with the blinder. -/

namespace Sys2Proof.Machine

/-! The frame of an RSA command (R84) and its key (R280, R300) -/

theorem State.rsaCommand_open {s : State} (ho : s.cryptoAllowed = true) (body : State → State) :
    s.rsaCommand body = { body { s with engineBusy := true } with engineBusy := false } :=
  State.withEngine_gated_open ho body

/-- A command whose body fails under the lock fails and frees the lock. -/
theorem failsUnlocked_of_body {i : Instr} {s : State} {body : State → State} (ho : s.cryptoAllowed = true)
    (hi : exec i s = .next (s.rsaCommand body))
    (hb : body { s with engineBusy := true } = ({ s with engineBusy := true } : State).fail) : FailsUnlocked i s := by
  rw [FailsUnlocked, hi, State.rsaCommand_open ho, hb, State.fail_eq]
  rfl

theorem keyExponent_of_keyOk {maxBytes n : Nat} {modulus ePort : Bytes} (h : KeyOk maxBytes modulus ePort n) :
    keyExponent maxBytes modulus.length n ePort = some (le ePort) :=
  keyExponent_eq_some.mpr ⟨h, rfl⟩

theorem keyExponent_eq_none {maxBytes n : Nat} {modulus ePort : Bytes} (h : ¬ KeyOk maxBytes modulus ePort n) :
    keyExponent maxBytes modulus.length n ePort = none :=
  Option.eq_none_iff_forall_ne_some.mpr fun _ he => h (keyExponent_eq_some.mp he).1

theorem KeyOk.one_lt {maxBytes n : Nat} {modulus ePort : Bytes} (h : KeyOk maxBytes modulus ePort n) : 1 < n := by
  obtain ⟨-, -, -, -, -, -, hn⟩ := h
  omega

/-! The blinded exponentiation (R282, R283) -/

theorem blinderInvertible_iff {r n : Nat} : blinderInvertible r n = true ↔ Nat.gcd r n = 1 := by
  rw [blinderInvertible, beq_iff_eq, ← Nat.gcd_rec n r, Nat.gcd_comm]

theorem modexpBlindedValue_lt (r mask x d e : Nat) {n : Nat} (hn : 0 < n) : modexpBlindedValue r mask x d n e < n :=
  Nat.mod_lt _ hn

/-- The inverse takes the blinder off again: times the blinder, the result is the power of the blinded input. -/
theorem modexpBlindedValue_mul_blinder {r n : Nat} (mask x d e : Nat) (hn : 1 < n) (hg : Nat.gcd r n = 1) :
    modexpBlindedValue r mask x d n e * r % n = x ^ d * r ^ (e * d) % n := by
  have hr : r % n ≡ r [MOD n] := Nat.mod_modEq r n
  have hinv : r * invMod (r % n) n ≡ 1 [MOD n] := by
    have hmod : r % n * invMod (r % n) n ≡ 1 [MOD n] := by
      rw [Nat.ModEq, Nat.mod_eq_of_lt hn]
      exact mul_invMod_mod hn (beq_iff_eq.mp (blinderInvertible_iff.mpr hg))
    exact (hr.symm.mul_right _).trans hmod
  have hxb : x * ((r % n) ^ e % n) % n ≡ x * r ^ e [MOD n] :=
    (Nat.mod_modEq _ n).trans (((Nat.mod_modEq _ n).trans (hr.pow e)).mul_left x)
  have hyb : (x * ((r % n) ^ e % n) % n) ^ d % n ≡ x ^ d * r ^ (e * d) [MOD n] := by
    rw [pow_mul, ← mul_pow]
    exact (Nat.mod_modEq _ n).trans (hxb.pow d)
  rw [modexpBlindedValue, unmask_eq, modexp_eq, modexp_eq]
  calc _ ≡ (x * ((r % n) ^ e % n) % n) ^ d % n * invMod (r % n) n * r [MOD n] := (Nat.mod_modEq _ n).mul_right r
    _ = (x * ((r % n) ^ e % n) % n) ^ d % n * (r * invMod (r % n) n) := by rw [mul_assoc, mul_comm r]
    _ ≡ x ^ d * r ^ (e * d) * 1 [MOD n] := hyb.mul hinv
    _ = x ^ d * r ^ (e * d) := mul_one _

/-- For a consistent key the blinder cancels (R283). -/
theorem eq_power_of_consistent {n r x d e y : Nat} (hg : Nat.gcd r n = 1) (hlt : y < n)
    (hy : y * r % n = x ^ d * r ^ (e * d) % n) (hkey : ∀ t, Nat.gcd t n = 1 → t ^ (e * d) % n = t % n) :
    y = x ^ d % n := by
  have hmul : y * r ≡ x ^ d * r [MOD n] := by
    calc y * r ≡ x ^ d * r ^ (e * d) [MOD n] := hy
      _ ≡ x ^ d * r [MOD n] := Nat.ModEq.mul_left _ (hkey r hg)
  have hcancel : y ≡ x ^ d [MOD n] := Nat.ModEq.cancel_right_of_coprime (by rwa [Nat.gcd_comm]) hmul
  exact (Nat.mod_eq_of_lt hlt).symm.trans hcancel

theorem State.drawNonzero_blinder (s : State) :
    s.drawNonzero 64 = (s.nextBlinder, { s with env := s.env.afterDraw }) := rfl

/-- With an invertible blinder the exponentiation takes two draws, and its result is the residue whose product with the
blinder is the power of the blinded input (R282). -/
theorem State.modexpBlinded_invertible {s : State} {n : Nat} (x d e : Nat) (hn : 1 < n)
    (hg : Nat.gcd s.nextBlinder n = 1) :
    ∃ y, y < n ∧ y * s.nextBlinder % n = x ^ d * s.nextBlinder ^ (e * d) % n ∧
      s.modexpBlinded x d n e = (some y, { s with env := s.env.afterDraw.afterDraw }) := by
  refine ⟨_, modexpBlindedValue_lt s.nextBlinder (s.env.afterDraw.nextDraw % 2 ^ 32) x d e (Nat.zero_lt_of_lt hn),
    modexpBlindedValue_mul_blinder _ x d e hn hg, ?_⟩
  simp only [State.modexpBlinded, State.drawNonzero_blinder, blinderInvertible_iff.mpr hg, if_true, State.draw]

theorem State.modexpBlinded_notInvertible {s : State} {n : Nat} (x d e : Nat) (hg : Nat.gcd s.nextBlinder n ≠ 1) :
    s.modexpBlinded x d n e = (none, { s with env := s.env.afterDraw }) := by
  simp only [State.modexpBlinded, State.drawNonzero_blinder, mt blinderInvertible_iff.mp hg,
    Bool.false_eq_true, if_false]

/-! `MODEXP_PUB` (R284) -/

theorem exec_modexpPub_refused {s : State} (ho : s.cryptoAllowed = true)
    (h : ¬ KeyOk 512 s.in2 s.in3 (le s.in2) ∨ s.in0.length ≠ s.in2.length ∨ le s.in2 ≤ le s.in0) :
    FailsUnlocked .modexpPub s := by
  refine failsUnlocked_of_body ho rfl ?_
  by_cases hk : KeyOk 512 s.in2 s.in3 (le s.in2)
  · simp only [rsaMaxPublicBytes, keyExponent_of_keyOk hk, if_pos (h.resolve_left (not_not_intro hk))]
  · simp only [rsaMaxPublicBytes, keyExponent_eq_none hk]

theorem exec_modexpPub {s : State} (ho : s.cryptoAllowed = true) (hk : KeyOk 512 s.in2 s.in3 (le s.in2))
    (h0 : s.in0.length = s.in2.length) (hx : le s.in0 < le s.in2) :
    exec .modexpPub s = .next { s with
      engineBusy := false, out0 := toLE (le s.in0 ^ le s.in3 % le s.in2) s.in2.length, out1 := [], res := 0 } := by
  show Host.Outcome.next (s.rsaCommand _) = _
  rw [State.rsaCommand_open ho]
  simp only [rsaMaxPublicBytes, keyExponent_of_keyOk hk, h0, ne_eq, not_true_eq_false, false_or, Nat.not_le.mpr hx, if_false,
    modexp_eq, State.answer_eq]
  rfl

/-! `MODEXP_BLINDED` (R282) -/

theorem exec_modexpBlinded_refused {s : State} (ho : s.cryptoAllowed = true)
    (h : ¬ KeyOk 512 s.in2 s.in3 (le s.in2) ∨ s.in1.length ≠ s.in2.length ∨ s.in0.length ≠ s.in2.length ∨
      le s.in2 ≤ le s.in0) : FailsUnlocked .modexpBlinded s := by
  refine failsUnlocked_of_body ho rfl ?_
  by_cases hk : KeyOk 512 s.in2 s.in3 (le s.in2)
  · simp only [rsaMaxPublicBytes, keyExponent_of_keyOk hk, if_pos (h.resolve_left (not_not_intro hk))]
  · simp only [rsaMaxPublicBytes, keyExponent_eq_none hk]

/-- With a good key and operands in range the command is the blinded exponentiation, and frees the lock. -/
theorem exec_modexpBlinded {s : State} {env : Env} {y : Option Nat} (ho : s.cryptoAllowed = true)
    (hk : KeyOk 512 s.in2 s.in3 (le s.in2)) (h1 : s.in1.length = s.in2.length) (h0 : s.in0.length = s.in2.length)
    (hx : le s.in0 < le s.in2)
    (hy : ({ s with engineBusy := true } : State).modexpBlinded (le s.in0) (le s.in1) (le s.in2) (le s.in3) =
      (y, { s with engineBusy := true, env := env })) :
    exec .modexpBlinded s = .next { s with
      engineBusy := false, env := env, out0 := y.elim [] fun v => toLE v s.in2.length, out1 := [],
      res := y.elim 1 fun _ => 0 } := by
  show Host.Outcome.next (s.rsaCommand _) = _
  rw [State.rsaCommand_open ho]
  simp only [rsaMaxPublicBytes, keyExponent_of_keyOk hk, h1, h0, ne_eq, not_true_eq_false, false_or, Nat.not_le.mpr hx,
    if_false, hy]
  cases y <;> rfl

/-- Settles O45: the blinder is taken off by its inverse, and for a consistent key it cancels. -/
theorem modexpCommandsAnswer : Obligations.ModexpCommandsAnswer := by
  unfold Obligations.ModexpCommandsAnswer
  refine ⟨fun s ho => ⟨fun h => ⟨exec_modexpPub_refused ho h, exec_modexpBlinded_refused ho (h.imp_right .inr)⟩,
      fun h1 => exec_modexpBlinded_refused ho (.inr (.inl h1))⟩,
    fun s ho hk h0 hx => exec_modexpPub ho hk h0 hx, fun s ho hk h1 h0 hx => ⟨fun hg => ?_, fun hg => ?_⟩⟩
  · obtain ⟨y, hlt, hmul, hy⟩ := State.modexpBlinded_invertible (s := { s with engineBusy := true }) (le s.in0) (le s.in1)
      (le s.in3) hk.one_lt hg
    exact ⟨y, hlt, hmul, exec_modexpBlinded ho hk h1 h0 hx hy, eq_power_of_consistent hg hlt hmul⟩
  · exact exec_modexpBlinded ho hk h1 h0 hx
      (State.modexpBlinded_notInvertible (s := { s with engineBusy := true }) _ _ _ hg)

end Sys2Proof.Machine
end

section
/-! SUPPORT. The paddings of RSA undone (R289 to R293): the filler without a zero is cut off at the first one, and the masks of
OAEP and PSS are taken off by the xor that put them on. -/

namespace Sys2Proof.Machine

/-! EME-PKCS1 (R289) -/

theorem splitAtZero_append {ps : Bytes} (m : Bytes) (h : ∀ b ∈ ps, b ≠ 0) :
    splitAtZero (ps ++ 0x00 :: m) = some (ps.length, m) := by
  induction ps with
  | nil => rfl
  | cons b bs ih =>
    obtain ⟨hb, hbs⟩ := List.forall_mem_cons.mp h
    simp only [List.cons_append, splitAtZero, if_neg hb, ih hbs, Option.map_some, List.length_cons]

theorem emePkcs1Decode_emePkcs1 {m ps : Bytes} (hlen : 8 ≤ ps.length) (hps : ∀ b ∈ ps, b ≠ 0) :
    emePkcs1Decode (emePkcs1 m ps) = some m := by
  have hshort : ¬ ps.length + 2 < 10 := by omega
  simp only [emePkcs1, emePkcs1Decode, and_self, if_true, splitAtZero_append m hps, if_neg hshort]

/-! OAEP (R290, R291) -/

theorem slice_one_cons_append {a b : Bytes} {n : Nat} (x : Byte) (ha : a.length = n) :
    slice (x :: (a ++ b)) 1 (1 + n) = a := by
  rw [slice, List.drop_one, List.tail_cons, Nat.add_sub_cancel_left, List.take_left' ha]

theorem drop_cons_append {a b : Bytes} {n : Nat} (x : Byte) (ha : a.length = n) :
    (x :: (a ++ b)).drop (1 + n) = b := by
  rw [Nat.add_comm, List.drop_succ_cons, List.drop_left' ha]

/-- A block that is cut as the encoding joins it decodes to what follows the label hash and the marker (R291). -/
theorem oaepDecode_joined {h : HashAlg} {label m maskedSeed maskedDb seed : Bytes} {k : Nat}
    (hms : maskedSeed.length = h.digestBytes) (hmdb : h.digestBytes < maskedDb.length)
    (hseed : xorBytes maskedSeed (mgf1 h maskedDb h.digestBytes) = seed)
    (hdb : xorBytes maskedDb (mgf1 h seed maskedDb.length) = hash h label ++ (zeros k ++ 0x01 :: m)) :
    oaepDecode h label (0x00 :: (maskedSeed ++ maskedDb)) = some m := by
  have hfits : ¬ (0x00 :: (maskedSeed ++ maskedDb)).length < 2 * h.digestBytes + 2 := by
    simp only [List.length_cons, List.length_append, hms]
    omega
  have hrest : (0x00 :: (maskedSeed ++ maskedDb)).length - h.digestBytes - 1 = maskedDb.length := by
    simp only [List.length_cons, List.length_append, hms]
    omega
  have hlabel : equals (hash h label) (hash h label) h.digestBytes = true :=
    (equals_iff _ _ _ (hash_length ..) (hash_length ..)).mpr rfl
  simp only [oaepDecode, if_neg hfits, hrest, slice_one_cons_append _ hms, drop_cons_append _ hms, hseed, hdb,
    List.take_left' (hash_length h label), List.drop_left' (hash_length h label), hlabel, afterOneMarker_zeros]
  rfl

theorem oaepDecode_oaepEncode {h : HashAlg} {m seed : Bytes} {nb : Nat} (label : Bytes)
    (hs : seed.length = h.digestBytes) (hm : m.length + 2 * h.digestBytes + 2 ≤ nb) :
    oaepDecode h label (oaepEncode h label m seed nb) = some m := by
  have hdbLen : (hash h label ++ zeros (nb - m.length - 2 * h.digestBytes - 2) ++ 0x01 :: m).length =
      nb - h.digestBytes - 1 := by
    simp only [List.length_append, List.length_cons, hash_length, zeros_length]
    omega
  rw [oaepEncode]
  refine oaepDecode_joined (k := nb - m.length - 2 * h.digestBytes - 2) ?_ ?_
    (xorBytes_xorBytes _ _ (by rw [hs, mgf1_length])) ?_
  · rw [xorBytes_length, mgf1_length, hs, min_self]
  · rw [xorBytes_length, mgf1_length, hdbLen, min_self]
    omega
  · rw [xorBytes_length, mgf1_length, hdbLen, min_self, xorBytes_xorBytes _ _ (by rw [hdbLen, mgf1_length]),
      List.append_assoc]

/-! PSS (R292, R293) -/

/-- The mask of the first byte of a PSS block. -/
def pssTopMask (n : Nat) : Byte := (0xff : Byte) >>> (8 * pssLen n - pssBits n)

theorem pssClear_cons (n : Nat) (b : Byte) (bs : Bytes) : pssClear n (b :: bs) = (b &&& pssTopMask n) :: bs := rfl

@[simp] theorem pssClear_length (n : Nat) (s : Bytes) : (pssClear n s).length = s.length := by
  cases s <;> rfl

theorem pssClear_pssClear (n : Nat) (s : Bytes) : pssClear n (pssClear n s) = pssClear n s := by
  cases s with
  | nil => rfl
  | cons b bs => simp only [pssClear_cons, BitVec.and_assoc, BitVec.and_self]

/-- At most seven bits are cleared, so that a marker byte keeps its one. -/
theorem one_and_pssTopMask (n : Nat) : 0x01 &&& pssTopMask n = 0x01 := by
  have hlt : 8 * pssLen n - pssBits n < 8 := by unfold pssLen; omega
  unfold pssTopMask
  generalize 8 * pssLen n - pssBits n = k at hlt
  interval_cases k <;> rfl

theorem pssClear_marked (n k : Nat) (salt : Bytes) : pssClear n (zeros k ++ 0x01 :: salt) = zeros k ++ 0x01 :: salt := by
  cases k with
  | zero => simp only [zeros, List.replicate_zero, List.nil_append, pssClear_cons, one_and_pssTopMask]
  | succ k =>
    have hzero : (0 : Byte) &&& pssTopMask n = 0 := BitVec.zero_and
    simp only [zeros, List.replicate_succ, List.cons_append, pssClear_cons, hzero]

/-- Clearing the masked block loses nothing that clearing the block would keep. -/
theorem pssClear_unmask {n : Nat} {db mask : Bytes} (h : db.length = mask.length) :
    pssClear n (xorBytes (pssClear n (xorBytes db mask)) mask) = pssClear n db := by
  cases db with
  | nil => rfl
  | cons b bs =>
    obtain ⟨x, xs, rfl⟩ := List.exists_cons_of_length_eq_add_one h.symm
    have htail : xorBytes (xorBytes bs xs) xs = bs := xorBytes_xorBytes bs xs (by simpa using h)
    have hhead : ((b ^^^ x) &&& pssTopMask n ^^^ x) &&& pssTopMask n = b &&& pssTopMask n := by
      ext i hi
      simp only [BitVec.getElem_and, BitVec.getElem_xor]
      cases b[i] <;> cases x[i] <;> cases (pssTopMask n)[i] <;> rfl
    simp only [xorBytes, List.zipWith_cons_cons, pssClear_cons] at htail ⊢
    rw [htail, hhead]

/-- What the verification checks of a block that is cut as the encoding joins it (R293). -/
theorem pssVerify_joined {h : HashAlg} {mHash maskedDb hh salt : Bytes} {n : Nat} (k : Nat)
    (hlen : maskedDb.length + h.digestBytes + 1 = pssLen n) (hpos : 0 < maskedDb.length)
    (hhh : hh = hash h (zeros 8 ++ mHash ++ salt)) (hclear : pssClear n maskedDb = maskedDb)
    (hsalt : afterOneMarker (pssClear n (xorBytes maskedDb (mgf1 h hh maskedDb.length))) = some salt) :
    pssVerify h mHash (zeros k ++ maskedDb ++ hh ++ [0xbc]) n = true := by
  have hhLen : hh.length = h.digestBytes := by rw [hhh, hash_length]
  have htotal : (zeros k ++ maskedDb ++ hh ++ [0xbc]).length - pssLen n = k := by
    simp only [List.length_append, zeros_length, hhLen, List.length_cons, List.length_nil]
    omega
  have hjoin : zeros k ++ maskedDb ++ hh ++ [0xbc] = zeros k ++ (maskedDb ++ (hh ++ [0xbc])) := by
    simp only [List.append_assoc]
  have hdb : pssLen n - h.digestBytes - 1 = maskedDb.length := by omega
  have hend : pssLen n - 1 - maskedDb.length = hh.length := by omega
  have hlead : (zeros k).all (· == 0) = true := by simp [zeros]
  have hlast : (maskedDb ++ (hh ++ [0xbc])).getLastD 0 = 0xbc := by simp [List.getLastD_eq_getLast?]
  have hfits : ¬ pssLen n < h.digestBytes + 2 := by omega
  have hverdict : equals hh (hash h (zeros 8 ++ mHash ++ salt)) h.digestBytes = true :=
    (equals_iff _ _ _ hhLen (hash_length ..)).mpr hhh
  simp only [pssVerify, htotal]
  rw [hjoin, List.take_left' (zeros_length k), List.drop_left' (zeros_length k)]
  simp only [slice, hdb, hend, List.take_left', List.drop_left', hlead, hlast, hclear, hfits, hsalt, hverdict]
  simp

theorem pssEncode_length {h : HashAlg} {mHash salt : Bytes} {n nb : Nat} (hfit : pssFits h n = true)
    (hsalt : salt.length = pssSaltLen h n) (hnb : pssLen n ≤ nb) : (pssEncode h mHash salt n nb).length = nb := by
  have hfit' : h.digestBytes + 2 ≤ pssLen n := of_decide_eq_true hfit
  have hmin : salt.length ≤ pssLen n - h.digestBytes - 2 := hsalt.trans_le (min_le_right ..)
  simp only [pssEncode, List.length_append, List.length_cons, List.length_nil, zeros_length, pssClear_length,
    xorBytes_length, mgf1_length, hash_length]
  omega

theorem pssVerify_pssEncode {h : HashAlg} {salt : Bytes} {n : Nat} (mHash : Bytes) (nb : Nat)
    (hfit : pssFits h n = true) (hsalt : salt.length = pssSaltLen h n) :
    pssVerify h mHash (pssEncode h mHash salt n nb) n = true := by
  have hfit' : h.digestBytes + 2 ≤ pssLen n := of_decide_eq_true hfit
  have hmin : salt.length ≤ pssLen n - h.digestBytes - 2 := hsalt.trans_le (min_le_right ..)
  set hh := hash h (zeros 8 ++ mHash ++ salt) with hhh
  set db : Bytes := zeros (pssLen n - salt.length - h.digestBytes - 2) ++ 0x01 :: salt with hdb
  have hdbLen : db.length = pssLen n - h.digestBytes - 1 := by
    simp only [hdb, List.length_append, List.length_cons, zeros_length]
    omega
  have hmaskedLen : (pssClear n (xorBytes db (mgf1 h hh (pssLen n - h.digestBytes - 1)))).length =
      pssLen n - h.digestBytes - 1 := by
    rw [pssClear_length, xorBytes_length, mgf1_length, hdbLen, min_self]
  refine pssVerify_joined (nb - pssLen n) (by rw [hmaskedLen]; omega) (by rw [hmaskedLen]; omega) hhh
    (pssClear_pssClear ..) ?_
  rw [hmaskedLen, pssClear_unmask (by rw [hdbLen, mgf1_length]), pssClear_marked, afterOneMarker_zeros]

/-- Settles O50: each decoder finds the parts that its encoder joined. -/
theorem paddingsRoundTrip : Obligations.PaddingsRoundTrip := by
  unfold Obligations.PaddingsRoundTrip
  exact ⟨fun _ _ => emePkcs1Decode_emePkcs1, fun _ label _ _ _ => oaepDecode_oaepEncode label,
    fun _ mHash _ _ nb hfit hsalt hnb => ⟨pssEncode_length hfit hsalt hnb, pssVerify_pssEncode mHash nb hfit hsalt⟩⟩

end Sys2Proof.Machine
end

section
/-! SUPPORT. `RSA_ENCRYPT` and `RSA_DECRYPT` (R295 to R297): what their selectors name, the padded blocks and their draws, and
what each command answers for legal operands or refuses. -/

namespace Sys2Proof.Machine

/-! Selectors (R295) -/

theorem rsaHashOfTag_isSome_iff (tag : BitVec 4) :
    (∃ h, rsaHashOfTag tag = some h) ↔ tag = 1 ∨ tag = 3 ∨ tag = 4 ∨ tag = 5 := by
  rw [← Option.isSome_iff_exists]
  revert tag
  decide

theorem rsaHashOfTag_eq_some {tag : BitVec 4} {h : HashAlg} :
    rsaHashOfTag tag = some h ↔ tag ≠ 2 ∧ hashOfTag tag = some h := by
  by_cases h2 : tag = 2 <;> simp [rsaHashOfTag, h2]

theorem cipherPadding_eq_some {padding hash : BitVec 4} {pad : Padding} : cipherPadding padding hash = some pad ↔
    padding = 0 ∧ hash = 0 ∧ pad = .null ∨ padding = 1 ∧ hash = 0 ∧ pad = .pkcs1 ∨
      padding = 2 ∧ ∃ h, rsaHashOfTag hash = some h ∧ pad = .oaep h := by
  constructor
  · intro h
    unfold cipherPadding at h
    split_ifs at h with h0 hh h1 hh h2
    · exact .inl ⟨h0, hh, (Option.some.inj h).symm⟩
    · exact .inr (.inl ⟨h1, hh, (Option.some.inj h).symm⟩)
    · obtain ⟨a, ha, rfl⟩ := Option.map_eq_some_iff.mp h
      exact .inr (.inr ⟨h2, a, ha, rfl⟩)
  · rintro (⟨rfl, rfl, rfl⟩ | ⟨rfl, rfl, rfl⟩ | ⟨rfl, a, ha, rfl⟩)
    · rfl
    · rfl
    · exact congrArg (Option.map Padding.oaep) ha

theorem cipherSelectorsLegal_of_some {padding hash : BitVec 4} {pad : Padding}
    (h : cipherPadding padding hash = some pad) : CipherSelectorsLegal padding hash := by
  rcases cipherPadding_eq_some.mp h with ⟨hp, hh, -⟩ | ⟨hp, hh, -⟩ | ⟨hp, a, hh, -⟩
  · exact .inl ⟨hp, hh⟩
  · exact .inr (.inl ⟨hp, hh⟩)
  · exact .inr (.inr ⟨hp, (rsaHashOfTag_isSome_iff hash).mp ⟨a, hh⟩⟩)

/-! Drawn bytes under the engine lock (R84, R289, R290, R292) -/

theorem State.drawBytes_withBusy (n : Nat) (s : State) (busy : Bool) :
    State.drawBytes n { s with engineBusy := busy } =
      ((State.drawBytes n s).1, { s with engineBusy := busy, env := (State.drawBytes n s).2.env }) := by
  induction n generalizing s with
  | zero => rfl
  | succ n ih => simp only [State.drawBytes, State.draw, ih { s with env := s.env.afterDraw }]

theorem State.drawNonzeroBytes_withBusy (n : Nat) (s : State) (busy : Bool) :
    State.drawNonzeroBytes n { s with engineBusy := busy } =
      ((State.drawNonzeroBytes n s).1, { s with engineBusy := busy, env := (State.drawNonzeroBytes n s).2.env }) := by
  induction n generalizing s with
  | zero => rfl
  | succ n ih =>
    simp only [State.drawNonzeroBytes, State.drawNonzero, State.draw, ih { s with env := s.env.afterDraw }]
    rfl

/-! `RSA_ENCRYPT` (R289, R290, R294, R296) -/

/-- How many bytes of a block a cipher padding takes beside the message. -/
def cipherOverhead : Padding → Nat
  | .null => 0
  | .pkcs1 => 11
  | .oaep h => 2 * h.digestBytes + 2
  | _ => 0

theorem oaepFits_iff {h : HashAlg} {mLen nb : Nat} : oaepFits h mLen nb = true ↔ mLen + (2 * h.digestBytes + 2) ≤ nb := by
  simp only [oaepFits, Bool.and_eq_true, decide_eq_true_eq]
  omega

theorem State.padCipher_null {m : Bytes} {nb : Nat} (s : State) (label : Bytes) (h : m.length ≤ nb) :
    s.padCipher .null label m nb = (some (zeros (nb - m.length) ++ m), s) := by
  rw [State.padCipher, if_pos h]

theorem emePkcs1_eq_append (m ps : Bytes) : emePkcs1 m ps = [0x00, 0x02] ++ ps ++ [0x00] ++ m := by
  simp only [emePkcs1, List.cons_append, List.nil_append, List.append_assoc]

theorem State.padCipher_pkcs1 {m : Bytes} {nb : Nat} (s : State) (busy : Bool) (label : Bytes) (h : m.length + 11 ≤ nb) :
    ({ s with engineBusy := busy } : State).padCipher .pkcs1 label m nb =
      (some (emePkcs1 m (State.drawNonzeroBytes (nb - m.length - 3) s).1),
        { s with engineBusy := busy, env := (State.drawNonzeroBytes (nb - m.length - 3) s).2.env }) := by
  simp only [State.padCipher, if_pos h, State.drawNonzeroBytes_withBusy]

theorem State.padCipher_oaep {a : HashAlg} {m : Bytes} {nb : Nat} (s : State) (busy : Bool) (label : Bytes)
    (h : oaepFits a m.length nb = true) :
    ({ s with engineBusy := busy } : State).padCipher (.oaep a) label m nb =
      (some (oaepEncode a label m (State.drawBytes a.digestBytes s).1 nb),
        { s with engineBusy := busy, env := (State.drawBytes a.digestBytes s).2.env }) := by
  simp only [State.padCipher, h, if_true, State.drawBytes_withBusy]

theorem State.padCipher_tooLong {pad : Padding} {m : Bytes} {nb : Nat} (s : State) (label : Bytes)
    (h : nb < m.length + cipherOverhead pad) : s.padCipher pad label m nb = (none, s) := by
  have hlong := Nat.not_le.mpr h
  cases pad with
  | null => simp only [State.padCipher, if_neg (show ¬ m.length ≤ nb from hlong)]
  | pkcs1 => exact if_neg hlong
  | oaep a => exact if_neg (mt oaepFits_iff.mp hlong)
  | pkcs1Hash a | pss a => rfl

/-- A message too long for its padding is refused, as are illegal selectors and a bad key. -/
theorem exec_rsaEncrypt_refused {s : State} {padding hash : BitVec 4} (ho : s.cryptoAllowed = true)
    (h : ∀ pad, cipherPadding padding hash = some pad → KeyOk 256 s.in2 s.in3 (be s.in2) →
      s.in2.length < s.in0.length + cipherOverhead pad) : FailsUnlocked (.rsaEncrypt padding hash) s := by
  refine failsUnlocked_of_body ho rfl ?_
  cases hp : cipherPadding padding hash with
  | none => simp only
  | some pad =>
    by_cases hk : KeyOk 256 s.in2 s.in3 (be s.in2)
    · simp only [rsaMaxPrivateBytes, keyExponent_of_keyOk hk, State.padCipher_tooLong _ _ (h pad hp hk)]
    · simp only [rsaMaxPrivateBytes, keyExponent_eq_none hk]

/-- A padded block is answered by its public power where it is below the modulus. -/
theorem exec_rsaEncrypt {s : State} {padding hash : BitVec 4} {pad : Padding} {em : Bytes} {env : Env}
    (ho : s.cryptoAllowed = true) (hk : KeyOk 256 s.in2 s.in3 (be s.in2)) (hp : cipherPadding padding hash = some pad)
    (hem : ({ s with engineBusy := true } : State).padCipher pad s.in1 s.in0 s.in2.length =
      (some em, { s with engineBusy := true, env := env })) :
    exec (.rsaEncrypt padding hash) s = .next (if be em < be s.in2 then
        { s with
          engineBusy := false, env := env, out0 := toBE (be em ^ le s.in3 % be s.in2) s.in2.length, out1 := [], res := 0 }
      else { s with engineBusy := false, env := env, out0 := [], out1 := [], res := 1 }) := by
  show Host.Outcome.next (s.rsaCommand _) = _
  rw [State.rsaCommand_open ho]
  simp only [rsaMaxPrivateBytes, hp, keyExponent_of_keyOk hk, hem, modexp_eq, State.fail_eq, State.answer_eq]
  by_cases hlt : be em < be s.in2
  · simp only [if_pos hlt, if_neg (Nat.not_le.mpr hlt)]
    rfl
  · simp only [if_neg hlt, if_pos (Nat.not_lt.mp hlt)]
    rfl

/-- Settles O46: the command is the public power of the block that its padding makes. -/
theorem rsaEncryptAnswers : Obligations.RsaEncryptAnswers := by
  unfold Obligations.RsaEncryptAnswers
  refine ⟨fun s padding hash ho hbad => exec_rsaEncrypt_refused ho fun pad hp hk => ?_, fun s ho hk => ?_⟩
  · rcases hbad with hsel | hkey | ⟨rfl, hlen⟩ | ⟨rfl, hlen⟩ | ⟨rfl, a, ha, hlen⟩
    · exact absurd (cipherSelectorsLegal_of_some hp) hsel
    · exact absurd hk hkey
    · obtain ⟨-, rfl⟩ : _ ∧ pad = .null := by simpa using cipherPadding_eq_some.mp hp
      exact hlen
    · obtain ⟨-, rfl⟩ : _ ∧ pad = .pkcs1 := by simpa using cipherPadding_eq_some.mp hp
      exact hlen
    · obtain ⟨b, hb, rfl⟩ : ∃ b, rsaHashOfTag hash = some b ∧ pad = .oaep b := by
        simpa using cipherPadding_eq_some.mp hp
      obtain rfl : a = b := Option.some.inj (ha.symm.trans (rsaHashOfTag_eq_some.mp hb).2)
      exact hlen
  · refine ⟨fun hlen => exec_rsaEncrypt ho hk rfl (State.padCipher_null _ _ hlen), fun hlen => ?_,
      fun hash a hne ha hlen => ?_⟩
    · obtain ⟨hfiller, hnonzero, -⟩ := State.drawNonzeroBytes_spec (s.in2.length - s.in0.length - 3) s
      refine ⟨hfiller, hnonzero, ?_⟩
      have hexec := exec_rsaEncrypt ho hk (padding := 1) (hash := 0) rfl (State.padCipher_pkcs1 s true s.in1 hlen)
      rwa [emePkcs1_eq_append] at hexec
    · obtain ⟨hseed, -⟩ := State.drawBytes_spec a.digestBytes s
      have hpad : cipherPadding 2 hash = some (.oaep a) :=
        cipherPadding_eq_some.mpr (.inr (.inr ⟨rfl, a, rsaHashOfTag_eq_some.mpr ⟨hne, ha⟩, rfl⟩))
      exact ⟨hseed, exec_rsaEncrypt ho hk hpad (State.padCipher_oaep s true s.in1 (oaepFits_iff.mpr hlen))⟩

/-! `RSA_DECRYPT` (R297) -/

/-- What follows the exponent in `IN1` is a label, and only OAEP has one (R280, R297). -/
theorem decryptKeyLenOk_iff {padding hash : BitVec 4} {pad : Padding} {len nb : Nat}
    (hp : cipherPadding padding hash = some pad) :
    decryptKeyLenOk pad len nb = true ↔ nb ≤ len ∧ (padding ≠ 2 → len = nb) := by
  rcases cipherPadding_eq_some.mp hp with ⟨rfl, -, rfl⟩ | ⟨rfl, -, rfl⟩ | ⟨rfl, a, -, rfl⟩
  · simpa [decryptKeyLenOk] using Eq.ge
  · simpa [decryptKeyLenOk] using Eq.ge
  · simp [decryptKeyLenOk]

/-- Operands of a wrong length or out of range are refused, as are illegal selectors and a bad key. -/
theorem exec_rsaDecrypt_refused {s : State} {padding hash : BitVec 4} (ho : s.cryptoAllowed = true)
    (h : ∀ pad, cipherPadding padding hash = some pad → KeyOk 256 s.in2 s.in3 (be s.in2) →
      s.in0.length ≠ s.in2.length ∨ decryptKeyLenOk pad s.in1.length s.in2.length = false ∨ be s.in2 ≤ be s.in0) :
    FailsUnlocked (.rsaDecrypt padding hash) s := by
  refine failsUnlocked_of_body ho rfl ?_
  cases hp : cipherPadding padding hash with
  | none => simp only
  | some pad =>
    by_cases hk : KeyOk 256 s.in2 s.in3 (be s.in2)
    · simp only [rsaMaxPrivateBytes, keyExponent_of_keyOk hk, if_pos (h pad hp hk)]
    · simp only [rsaMaxPrivateBytes, keyExponent_eq_none hk]

/-- With legal operands the command unpads what the blinded exponentiation recovers, and fails where there is nothing. -/
theorem exec_rsaDecrypt {s : State} {padding hash : BitVec 4} {pad : Padding} {m : Option Nat} {env : Env}
    (ho : s.cryptoAllowed = true) (hk : KeyOk 256 s.in2 s.in3 (be s.in2)) (hp : cipherPadding padding hash = some pad)
    (h0 : s.in0.length = s.in2.length) (hx : be s.in0 < be s.in2)
    (h1 : decryptKeyLenOk pad s.in1.length s.in2.length = true)
    (hm : ({ s with engineBusy := true } : State).modexpBlinded (be s.in0) (be (s.in1.take s.in2.length)) (be s.in2)
      (le s.in3) = (m, { s with engineBusy := true, env := env })) :
    let msg := m.bind fun v => unpadCipher pad (s.in1.drop s.in2.length) (toBE v s.in2.length)
    exec (.rsaDecrypt padding hash) s = .next { s with
      engineBusy := false, env := env, out0 := msg.getD [], out1 := [], res := if msg.isSome then 0 else 1 } := by
  show Host.Outcome.next (s.rsaCommand _) = _
  rw [State.rsaCommand_open ho]
  simp only [rsaMaxPrivateBytes, hp, keyExponent_of_keyOk hk, h0, h1, ne_eq, not_true_eq_false, Bool.true_eq_false,
    false_or, Nat.not_le.mpr hx, if_false, hm]
  cases m with
  | none => rfl
  | some v =>
    rcases Option.eq_none_or_eq_some (unpadCipher pad (s.in1.drop s.in2.length) (toBE v s.in2.length)) with
      hu | ⟨msg, hu⟩ <;> simp only [Option.bind_some, hu] <;> rfl

/-- Settles O47: the command unpads the block that the blinded exponentiation recovers, or refuses its operands. -/
theorem rsaDecryptAnswers : Obligations.RsaDecryptAnswers := by
  unfold Obligations.RsaDecryptAnswers
  refine ⟨fun s padding hash ho hbad => exec_rsaDecrypt_refused ho fun pad hp hk => ?_,
    fun s padding hash pad ho hk hp h0 hx hlen hlabel => ?_⟩
  · rw [← Bool.not_eq_true, decryptKeyLenOk_iff hp]
    rcases hbad with hsel | hkey | h0 | h1 | ⟨h2, h1⟩ | hx
    · exact absurd (cipherSelectorsLegal_of_some hp) hsel
    · exact absurd hk hkey
    · exact .inl h0
    · exact .inr (.inl fun h => absurd h.1 (Nat.not_le.mpr h1))
    · exact .inr (.inl fun h => h1 (h.2 h2))
    · exact .inr (.inr hx)
  · have h1 : decryptKeyLenOk pad s.in1.length s.in2.length = true := (decryptKeyLenOk_iff hp).mpr ⟨hlen, hlabel⟩
    refine ⟨fun hg => ?_, fun hg => ?_⟩
    · exact exec_rsaDecrypt ho hk hp h0 hx h1
        (State.modexpBlinded_notInvertible (s := { s with engineBusy := true }) _ _ _ hg)
    · obtain ⟨m, hlt, hmul, hm⟩ := State.modexpBlinded_invertible (s := { s with engineBusy := true }) (be s.in0)
        (be (s.in1.take s.in2.length)) (le s.in3) hk.one_lt hg
      exact ⟨m, hlt, hmul, exec_rsaDecrypt ho hk hp h0 hx h1 hm⟩

end Sys2Proof.Machine
end

section
/-! SUPPORT. `RSA_SIGN` and `RSA_VERIFY` (R295, R298, R299): what their selectors name, the padded blocks and their draws, and
what each command answers for legal operands or refuses. -/

namespace Sys2Proof.Machine

/-! Selectors (R295) -/

theorem signaturePadding_eq_some {padding hash : BitVec 4} {pad : Padding} : signaturePadding padding hash = some pad ↔
    padding = 0 ∧ hash = 0 ∧ pad = .null ∨ (padding = 1 ∧ ∃ h, rsaHashOfTag hash = some h ∧ pad = .pkcs1Hash h) ∨
      padding = 3 ∧ ∃ h, rsaHashOfTag hash = some h ∧ pad = .pss h := by
  constructor
  · intro h
    unfold signaturePadding at h
    split_ifs at h with h0 hh h1 h3
    · exact .inl ⟨h0, hh, (Option.some.inj h).symm⟩
    · obtain ⟨a, ha, rfl⟩ := Option.map_eq_some_iff.mp h
      exact .inr (.inl ⟨h1, a, ha, rfl⟩)
    · obtain ⟨a, ha, rfl⟩ := Option.map_eq_some_iff.mp h
      exact .inr (.inr ⟨h3, a, ha, rfl⟩)
  · rintro (⟨rfl, rfl, rfl⟩ | ⟨rfl, a, ha, rfl⟩ | ⟨rfl, a, ha, rfl⟩)
    · rfl
    · exact congrArg (Option.map Padding.pkcs1Hash) ha
    · exact congrArg (Option.map Padding.pss) ha

theorem signatureSelectorsLegal_of_some {padding hash : BitVec 4} {pad : Padding}
    (h : signaturePadding padding hash = some pad) : SignatureSelectorsLegal padding hash := by
  rcases signaturePadding_eq_some.mp h with ⟨hp, hh, -⟩ | ⟨hp, a, hh, -⟩ | ⟨hp, a, hh, -⟩
  · exact .inl ⟨hp, hh⟩
  · exact .inr ⟨.inl hp, (rsaHashOfTag_isSome_iff hash).mp ⟨a, hh⟩⟩
  · exact .inr ⟨.inr hp, (rsaHashOfTag_isSome_iff hash).mp ⟨a, hh⟩⟩

/-! `RSA_SIGN` (R288, R292, R294, R298) -/

theorem State.padSignature_pss {a : HashAlg} {n : Nat} (s : State) (busy : Bool) (digest : Bytes) (nb : Nat)
    (h : pssFits a n = true) :
    ({ s with engineBusy := busy } : State).padSignature (.pss a) digest n nb =
      (some (pssEncode a digest (State.drawBytes (pssSaltLen a n) s).1 n nb),
        { s with engineBusy := busy, env := (State.drawBytes (pssSaltLen a n) s).2.env }) := by
  simp only [State.padSignature, h, if_true, State.drawBytes_withBusy]

/-- Operands of a wrong length and a modulus too short for the padding are refused, as are illegal selectors and a bad key. -/
theorem exec_rsaSign_refused {s : State} {padding hash : BitVec 4} (ho : s.cryptoAllowed = true)
    (h : ∀ pad, signaturePadding padding hash = some pad → KeyOk 256 s.in2 s.in3 (be s.in2) →
      (s.in1.length ≠ s.in2.length ∨ s.in0.length ≠ signatureOperandLen pad s.in2.length) ∨
        ∀ u : State, u.padSignature pad s.in0 (be s.in2) s.in2.length = (none, u)) :
    FailsUnlocked (.rsaSign padding hash) s := by
  refine failsUnlocked_of_body ho rfl ?_
  cases hp : signaturePadding padding hash with
  | none => simp only
  | some pad =>
    by_cases hk : KeyOk 256 s.in2 s.in3 (be s.in2)
    · simp only [rsaMaxPrivateBytes, keyExponent_of_keyOk hk]
      split
      · rfl
      · next hop => rw [(h pad hp hk).resolve_left hop]
    · simp only [rsaMaxPrivateBytes, keyExponent_eq_none hk]

section Sign

variable {s : State} {padding hash : BitVec 4} {pad : Padding} {em : Bytes} {env : Env}

/-- A block that is not below the modulus fails after its draws (R298). -/
theorem exec_rsaSign_tooLarge (ho : s.cryptoAllowed = true) (hk : KeyOk 256 s.in2 s.in3 (be s.in2))
    (hp : signaturePadding padding hash = some pad) (h1 : s.in1.length = s.in2.length)
    (h0 : s.in0.length = signatureOperandLen pad s.in2.length)
    (hem : ({ s with engineBusy := true } : State).padSignature pad s.in0 (be s.in2) s.in2.length =
      (some em, { s with engineBusy := true, env := env })) (hx : be s.in2 ≤ be em) :
    exec (.rsaSign padding hash) s = .next { s with
      engineBusy := false, env := env, out0 := [], out1 := [], res := 1 } := by
  show Host.Outcome.next (s.rsaCommand _) = _
  rw [State.rsaCommand_open ho]
  simp only [rsaMaxPrivateBytes, hp, keyExponent_of_keyOk hk, h1, h0, ne_eq, not_true_eq_false, or_self, if_false, hem,
    if_pos hx]
  rfl

/-- A block below the modulus is answered by the blinded exponentiation. -/
theorem exec_rsaSign {env' : Env} {y : Option Nat} (ho : s.cryptoAllowed = true)
    (hk : KeyOk 256 s.in2 s.in3 (be s.in2)) (hp : signaturePadding padding hash = some pad)
    (h1 : s.in1.length = s.in2.length) (h0 : s.in0.length = signatureOperandLen pad s.in2.length)
    (hem : ({ s with engineBusy := true } : State).padSignature pad s.in0 (be s.in2) s.in2.length =
      (some em, { s with engineBusy := true, env := env })) (hx : be em < be s.in2)
    (hy : ({ s with engineBusy := true, env := env } : State).modexpBlinded (be em) (be s.in1) (be s.in2) (le s.in3) =
      (y, { s with engineBusy := true, env := env' })) :
    exec (.rsaSign padding hash) s = .next { s with
      engineBusy := false, env := env', out0 := y.elim [] fun v => toBE v s.in2.length, out1 := [],
      res := y.elim 1 fun _ => 0 } := by
  show Host.Outcome.next (s.rsaCommand _) = _
  rw [State.rsaCommand_open ho]
  simp only [rsaMaxPrivateBytes, hp, keyExponent_of_keyOk hk, h1, h0, ne_eq, not_true_eq_false, or_self, if_false, hem,
    if_neg (Nat.not_le.mpr hx), hy]
  cases y <;> rfl

end Sign

/-- Settles O48: the command is the blinded exponentiation of the block that its padding makes, or refuses its operands. -/
theorem rsaSignAnswers : Obligations.RsaSignAnswers := by
  unfold Obligations.RsaSignAnswers
  refine ⟨fun s padding hash ho hbad => exec_rsaSign_refused ho fun pad hp hk => ?_,
    fun s padding hash pad em env ho hk hp h1 h0 hnull hpkcs1 hpss => ?_⟩
  · rcases hbad with hsel | hkey | h1 | ⟨pad', hp', h0⟩ | ⟨a, -, hp', hnone⟩ | ⟨a, -, hp', hshort⟩
    · exact absurd (signatureSelectorsLegal_of_some hp) hsel
    · exact absurd hk hkey
    · exact .inl (.inl h1)
    · obtain rfl : pad' = pad := Option.some.inj (hp'.symm.trans hp)
      exact .inl (.inr h0)
    · obtain rfl : .pkcs1Hash a = pad := Option.some.inj (hp'.symm.trans hp)
      exact .inr fun u => congrArg (·, u) hnone
    · obtain rfl : .pss a = pad := Option.some.inj (hp'.symm.trans hp)
      exact .inr fun u => if_neg (by rw [hshort]; decide)
  · have hem : ({ s with engineBusy := true } : State).padSignature pad s.in0 (be s.in2) s.in2.length =
        (some em, { s with engineBusy := true, env := env }) := by
      rcases signaturePadding_eq_some.mp hp with ⟨-, -, rfl⟩ | ⟨-, a, -, rfl⟩ | ⟨-, a, -, rfl⟩
      · obtain ⟨rfl, rfl⟩ := hnull rfl
        rfl
      · obtain ⟨hblock, rfl⟩ := hpkcs1 a rfl
        exact congrArg (·, _) hblock
      · obtain ⟨hfits, rfl, rfl⟩ := hpss a rfl
        exact State.padSignature_pss s true s.in0 s.in2.length hfits
    intro r
    refine ⟨exec_rsaSign_tooLarge ho hk hp h1 h0 hem, fun hx hg => ?_, fun hx hg => ?_⟩
    · exact exec_rsaSign ho hk hp h1 h0 hem hx
        (State.modexpBlinded_notInvertible (s := { s with engineBusy := true, env := env }) _ _ _ hg)
    · obtain ⟨y, hlt, hmul, hy⟩ := State.modexpBlinded_invertible (s := { s with engineBusy := true, env := env }) (be em)
        (be s.in1) (le s.in3) hk.one_lt hg
      exact ⟨y, hlt, hmul, exec_rsaSign ho hk hp h1 h0 hem hx hy⟩

/-! `RSA_VERIFY` (R299) -/

theorem blockVerifies_null {digest em : Bytes} {n nb : Nat} (hd : digest.length = nb) (hem : em.length = nb) :
    blockVerifies .null digest em n nb = true ↔ em = digest :=
  equals_iff em digest nb hem hd

theorem blockVerifies_pkcs1Hash {a : HashAlg} {digest em : Bytes} {n nb : Nat} (hem : em.length = nb) :
    blockVerifies (.pkcs1Hash a) digest em n nb = true ↔ emsaPkcs1 a digest nb = some em := by
  cases hx : emsaPkcs1 a digest nb with
  | none => simp only [blockVerifies, hx, Bool.false_eq_true, reduceCtorEq]
  | some expected =>
    simp only [blockVerifies, hx, equals_iff em expected nb hem (emsaPkcs1_length hx), Option.some.injEq,
      eq_comm (a := em)]

/-- The command is the verdict of `rsaVerifyValue`, and draws nothing. -/
theorem exec_rsaVerify {s : State} {padding hash : BitVec 4} {pad : Padding} (ho : s.cryptoAllowed = true)
    (hp : signaturePadding padding hash = some pad) :
    exec (.rsaVerify padding hash) s = .next { s with
      engineBusy := false, out0 := [], out1 := [],
      res := if rsaVerifyValue pad s.in0 s.in1 s.in2 s.in3 then 0 else 1 } := by
  show Host.Outcome.next (s.rsaCommand _) = _
  rw [State.rsaCommand_open ho]
  simp only [hp, State.verdict_eq]
  cases rsaVerifyValue pad s.in0 s.in1 s.in2 s.in3 <;> rfl

theorem rsaVerifyValue_of_bad {pad : Padding} {digest sig modulus ePort : Bytes}
    (h : KeyOk 512 modulus ePort (be modulus) → sig.length ≠ modulus.length ∨
      digest.length ≠ signatureOperandLen pad modulus.length ∨ be modulus ≤ be sig) :
    rsaVerifyValue pad digest sig modulus ePort = false := by
  by_cases hk : KeyOk 512 modulus ePort (be modulus)
  · simp only [rsaVerifyValue, rsaMaxPublicBytes, keyExponent_of_keyOk hk, if_pos (h hk)]
  · simp only [rsaVerifyValue, rsaMaxPublicBytes, keyExponent_eq_none hk]

/-- With legal operands the value is the check of the block that the public exponentiation recovers. -/
theorem rsaVerifyValue_of_legal {pad : Padding} {digest sig modulus ePort : Bytes}
    (hk : KeyOk 512 modulus ePort (be modulus)) (hs : sig.length = modulus.length)
    (hd : digest.length = signatureOperandLen pad modulus.length) (hx : be sig < be modulus) :
    rsaVerifyValue pad digest sig modulus ePort =
      blockVerifies pad digest (toBE (be sig ^ le ePort % be modulus) modulus.length) (be modulus) modulus.length := by
  simp only [rsaVerifyValue, rsaMaxPublicBytes, keyExponent_of_keyOk hk, hs, hd, ne_eq, not_true_eq_false, false_or,
    Nat.not_le.mpr hx, if_false, modexp_eq]

/-- Settles O49: the command is the check of the recovered block, by its padding. -/
theorem rsaVerifyAnswers : Obligations.RsaVerifyAnswers := by
  unfold Obligations.RsaVerifyAnswers
  refine ⟨fun s padding hash ho hbad => ?_, fun s padding hash pad ho hk hp h1 h0 hx => ?_⟩
  · cases hp : signaturePadding padding hash with
    | none => exact failsUnlocked_of_body ho rfl (by simp only [hp])
    | some pad =>
      have hfalse : rsaVerifyValue pad s.in0 s.in1 s.in2 s.in3 = false := rsaVerifyValue_of_bad fun hk => by
        rcases hbad with hsel | hkey | h1 | ⟨pad', hp', h0⟩ | hx
        · exact absurd (signatureSelectorsLegal_of_some hp) hsel
        · exact absurd hk hkey
        · exact .inl h1
        · obtain rfl : pad' = pad := Option.some.inj (hp'.symm.trans hp)
          exact .inr (.inl h0)
        · exact .inr (.inr hx)
      have hexec := exec_rsaVerify ho hp
      rw [hfalse] at hexec
      exact hexec
  · intro em
    have hexec := exec_rsaVerify ho hp
    rw [rsaVerifyValue_of_legal hk h1 h0 hx] at hexec
    rcases signaturePadding_eq_some.mp hp with ⟨-, -, rfl⟩ | ⟨-, a, -, rfl⟩ | ⟨-, a, -, rfl⟩
    · simp only [blockVerifies_null (nb := s.in2.length) h0 (toBE_length ..)] at hexec
      exact hexec
    · simp only [blockVerifies_pkcs1Hash (toBE_length ..)] at hexec
      exact hexec
    · exact hexec

end Sys2Proof.Machine
end

section
/-! SUPPORT. The AES block cipher undone (R323, R324): each step of a round has its inverse, and so have the rounds under any
round keys and the cipher under a key of one of the three lengths. -/

namespace Sys2Proof.Machine

/-! The steps of a round -/

/-- The tables of R321 are inverse to each other. -/
theorem invSbox_sbox (a : Byte) : invSbox (sbox a) = a := by
  revert a
  decide +kernel

theorem invSubBytes_subBytes (st : Bytes) : invSubBytes (subBytes st) = st := by
  simp [invSubBytes, subBytes, Function.comp_def, invSbox_sbox]

theorem shiftRows_getD (st : Bytes) {i : Nat} (h : i < 16) :
    (shiftRows st).getD i 0 = st.getD (i % 4 + 4 * ((i / 4 + i % 4) % 4)) 0 := by
  rw [List.getD_eq_getElem _ _ (by simpa using h)]
  simp [shiftRows]

/-- Rotating row `r` left by `r` and then right by `r` moves no byte. -/
theorem invShiftRows_shiftRows {st : Bytes} (h : st.length = 16) : invShiftRows (shiftRows st) = st := by
  refine List.ext_getElem (by simp [h]) fun i _ hi => ?_
  have hback : ∀ i < 16, let k := i % 4 + 4 * ((i / 4 + 4 - i % 4) % 4)
      k < 16 ∧ k % 4 + 4 * ((k / 4 + k % 4) % 4) = i := by decide
  obtain ⟨hk, hki⟩ := hback i (h ▸ hi)
  simp only [invShiftRows, List.getElem_map, List.getElem_range]
  rw [shiftRows_getD st hk, hki, List.getD_eq_getElem _ _ hi]

/-! The field product is linear in its second factor (R321) -/

theorem xtime_xor (a b : Byte) : xtime (a ^^^ b) = xtime a ^^^ xtime b := by
  have hcarry : ∀ p q : Bool, (if (p ^^ q) = true then (0x1b : Byte) else 0) =
      (if p = true then 0x1b else 0) ^^^ (if q = true then 0x1b else 0) := by decide
  simp only [xtime, BitVec.shiftLeft_xor_distrib, BitVec.getLsbD_xor, hcarry]
  ac_rfl

theorem gmulBits_xor (n : Nat) (c a b : Byte) : gmulBits n c (a ^^^ b) = gmulBits n c a ^^^ gmulBits n c b := by
  induction n generalizing c a b with
  | zero => simp [gmulBits]
  | succ n ih =>
    simp only [gmulBits, xtime_xor, ih]
    split
    · ac_rfl
    · simp

theorem gmul_xor (c a b : Byte) : gmul c (a ^^^ b) = gmul c a ^^^ gmul c b := gmulBits_xor 8 c a b

/-! The columns -/

/-- The first byte of a column times the circulant matrix; the others are the same of the column rotated. -/
def mixByte (m0 m1 m2 m3 a0 a1 a2 a3 : Byte) : Byte := gmul m0 a0 ^^^ gmul m1 a1 ^^^ gmul m2 a2 ^^^ gmul m3 a3

theorem mixColumn_eq (m0 m1 m2 m3 a0 a1 a2 a3 : Byte) :
    mixColumn m0 m1 m2 m3 a0 a1 a2 a3 =
      [mixByte m0 m1 m2 m3 a0 a1 a2 a3, mixByte m0 m1 m2 m3 a1 a2 a3 a0, mixByte m0 m1 m2 m3 a2 a3 a0 a1,
        mixByte m0 m1 m2 m3 a3 a0 a1 a2] := by
  simp only [mixColumn, mixByte, List.cons.injEq, and_true, true_and]
  exact ⟨by ac_rfl, by ac_rfl, by ac_rfl⟩

/-- The first row of the matrix of R324 times the columns of the matrix of R323: the first row of the identity. -/
theorem invMix_mix_coefficients (a : Byte) :
    mixByte 0x0e 0x0b 0x0d 0x09 (gmul 0x02 a) (gmul 0x01 a) (gmul 0x01 a) (gmul 0x03 a) = a ∧
    mixByte 0x0e 0x0b 0x0d 0x09 (gmul 0x03 a) (gmul 0x02 a) (gmul 0x01 a) (gmul 0x01 a) = 0 ∧
    mixByte 0x0e 0x0b 0x0d 0x09 (gmul 0x01 a) (gmul 0x03 a) (gmul 0x02 a) (gmul 0x01 a) = 0 ∧
    mixByte 0x0e 0x0b 0x0d 0x09 (gmul 0x01 a) (gmul 0x01 a) (gmul 0x03 a) (gmul 0x02 a) = 0 := by
  revert a
  decide +kernel

theorem mixByte_xor (m0 m1 m2 m3 a0 a1 a2 a3 b0 b1 b2 b3 : Byte) :
    mixByte m0 m1 m2 m3 (a0 ^^^ b0) (a1 ^^^ b1) (a2 ^^^ b2) (a3 ^^^ b3) =
      mixByte m0 m1 m2 m3 a0 a1 a2 a3 ^^^ mixByte m0 m1 m2 m3 b0 b1 b2 b3 := by
  simp only [mixByte, gmul_xor]
  ac_rfl

/-- The first byte of a column comes back from the mixed column. -/
theorem mixByte_mixByte (a0 a1 a2 a3 : Byte) :
    mixByte 0x0e 0x0b 0x0d 0x09 (mixByte 0x02 0x03 0x01 0x01 a0 a1 a2 a3) (mixByte 0x02 0x03 0x01 0x01 a1 a2 a3 a0)
      (mixByte 0x02 0x03 0x01 0x01 a2 a3 a0 a1) (mixByte 0x02 0x03 0x01 0x01 a3 a0 a1 a2) = a0 := by
  obtain ⟨h0, -, -, -⟩ := invMix_mix_coefficients a0
  obtain ⟨-, h1, -, -⟩ := invMix_mix_coefficients a1
  obtain ⟨-, -, h2, -⟩ := invMix_mix_coefficients a2
  obtain ⟨-, -, -, h3⟩ := invMix_mix_coefficients a3
  have hsplit : mixByte 0x0e 0x0b 0x0d 0x09 (mixByte 0x02 0x03 0x01 0x01 a0 a1 a2 a3)
      (mixByte 0x02 0x03 0x01 0x01 a1 a2 a3 a0) (mixByte 0x02 0x03 0x01 0x01 a2 a3 a0 a1)
      (mixByte 0x02 0x03 0x01 0x01 a3 a0 a1 a2) =
      mixByte 0x0e 0x0b 0x0d 0x09 (gmul 0x02 a0) (gmul 0x01 a0) (gmul 0x01 a0) (gmul 0x03 a0) ^^^
      mixByte 0x0e 0x0b 0x0d 0x09 (gmul 0x03 a1) (gmul 0x02 a1) (gmul 0x01 a1) (gmul 0x01 a1) ^^^
      mixByte 0x0e 0x0b 0x0d 0x09 (gmul 0x01 a2) (gmul 0x03 a2) (gmul 0x02 a2) (gmul 0x01 a2) ^^^
      mixByte 0x0e 0x0b 0x0d 0x09 (gmul 0x01 a3) (gmul 0x01 a3) (gmul 0x03 a3) (gmul 0x02 a3) := by
    simp only [← mixByte_xor]
    congr 1 <;> (simp only [mixByte]; ac_rfl)
  rw [hsplit, h0, h1, h2, h3]
  simp

theorem mixWith_mixWith (n : Nat) (st : Bytes) (h : st.length = 4 * n) :
    mixWith 0x0e 0x0b 0x0d 0x09 (mixWith 0x02 0x03 0x01 0x01 st) = st := by
  induction n generalizing st with
  | zero =>
    obtain rfl : st = [] := by simpa using h
    rfl
  | succ n ih =>
    obtain ⟨a0, a1, a2, a3, rest, rfl⟩ : ∃ a0 a1 a2 a3 rest, st = a0 :: a1 :: a2 :: a3 :: rest := by
      match st, h with
      | a0 :: a1 :: a2 :: a3 :: rest, _ => exact ⟨a0, a1, a2, a3, rest, rfl⟩
    have hrest : rest.length = 4 * n := by simp only [List.length_cons] at h; omega
    simp only [mixWith, mixColumn_eq, List.cons_append, List.nil_append, mixByte_mixByte, ih rest hrest]

theorem invMixColumns_mixColumns {st : Bytes} (h : st.length = 16) : invMixColumns (mixColumns st) = st :=
  mixWith_mixWith 4 st h

/-! The rounds -/

theorem invSubBytes_invShiftRows_cancel {st : Bytes} (h : st.length = 16) :
    invSubBytes (invShiftRows (shiftRows (subBytes st))) = st := by
  rw [invShiftRows_shiftRows (by rwa [subBytes_length]), invSubBytes_subBytes]

/-- The rounds of R324 under the middle round keys, newest first, undo the rounds of R323 down to the first half of the round
that used the oldest of them. -/
theorem decryptRounds_encryptRounds {last : Bytes} (hlast : last.length = 16) (tail : List Bytes) (htail : tail ≠ [])
    (rks : List Bytes) (hrks : ∀ rk ∈ rks, rk.length = 16) (st : Bytes) (hst : st.length = 16) :
    decryptRounds (rks.reverse ++ tail) (xorBytes (encryptRounds (rks ++ [last]) st) last) =
      decryptRounds tail (shiftRows (subBytes st)) := by
  induction rks generalizing st tail with
  | nil => simp [encryptRounds, xorBytes_xorBytes, hlast]
  | cons rk rks ih =>
    obtain ⟨hrk, hrest⟩ := List.forall_mem_cons.mp hrks
    have hmix : (mixColumns (shiftRows (subBytes st))).length = rk.length := by
      rw [mixColumns_length (shiftRows_length _), hrk]
    have hround : (xorBytes (mixColumns (shiftRows (subBytes st))) rk).length = 16 := by
      rw [xorBytes_length, hmix, hrk, min_self]
    have henc : encryptRounds (rk :: rks ++ [last]) st =
        encryptRounds (rks ++ [last]) (xorBytes (mixColumns (shiftRows (subBytes st))) rk) := by
      cases rks <;> rfl
    have hdec : ∀ x, decryptRounds (rk :: tail) x =
        decryptRounds tail (invMixColumns (xorBytes (invSubBytes (invShiftRows x)) rk)) := by
      obtain ⟨t, ts, rfl⟩ := List.exists_cons_of_ne_nil htail
      exact fun _ => rfl
    calc decryptRounds ((rk :: rks).reverse ++ tail) (xorBytes (encryptRounds (rk :: rks ++ [last]) st) last)
        = decryptRounds (rk :: tail) (shiftRows (subBytes (xorBytes (mixColumns (shiftRows (subBytes st))) rk))) := by
          rw [henc, List.reverse_cons, List.append_assoc, List.singleton_append]
          exact ih _ (List.cons_ne_nil _ _) hrest _ hround
      _ = decryptRounds tail (shiftRows (subBytes st)) := by
          rw [hdec, invSubBytes_invShiftRows_cancel hround, xorBytes_xorBytes _ _ hmix,
            invMixColumns_mixColumns (shiftRows_length _)]

/-- `D` undoes `E` under any two or more round keys. -/
theorem decryptBlock_encryptBlock {rks : List Bytes} (hlen : 2 ≤ rks.length) (hrks : ∀ rk ∈ rks, rk.length = 16)
    {block : Bytes} (hb : block.length = 16) : decryptBlock rks (encryptBlock rks block) = block := by
  obtain ⟨first, mid, last, rfl⟩ : ∃ first mid last, rks = first :: (mid ++ [last]) := by
    match rks, hlen with
    | first :: r :: rest, _ =>
      exact ⟨first, _, _, congrArg (first :: ·) (List.dropLast_append_getLast (List.cons_ne_nil r rest)).symm⟩
  have hfirst : first.length = 16 := hrks first (by simp)
  have hlast : last.length = 16 := hrks last (by simp)
  have hst : (xorBytes block first).length = 16 := by simp [hb, hfirst]
  calc decryptBlock (first :: (mid ++ [last])) (encryptBlock (first :: (mid ++ [last])) block)
      = decryptRounds (mid.reverse ++ [first])
          (xorBytes (encryptRounds (mid ++ [last]) (xorBytes block first)) last) := by
        simp [decryptBlock, encryptBlock]
    _ = decryptRounds [first] (shiftRows (subBytes (xorBytes block first))) :=
        decryptRounds_encryptRounds hlast [first] (List.cons_ne_nil _ _) mid (fun rk h => hrks rk (by simp [h])) _ hst
    _ = block := by
        rw [decryptRounds, invSubBytes_invShiftRows_cancel hst, xorBytes_xorBytes _ _ (hb.trans hfirst.symm)]

/-- `D(key, E(key, b)) = b` (R324). -/
theorem aesD_aesE {key block : Bytes} (hk : key.length = 16 ∨ key.length = 24 ∨ key.length = 32)
    (hb : block.length = 16) : aesD key (aesE key block) = block := by
  obtain ⟨hlen, hrks⟩ := roundKeys_spec hk
  exact decryptBlock_encryptBlock (by omega) hrks hb

end Sys2Proof.Machine
end

section
/-! SUPPORT. Cipher block chaining (R328, R329) over a string of whole blocks, by induction on its blocks, and counter mode
(R327) used twice. -/

namespace Sys2Proof.Machine

/-! Blocks of a string -/

/-- A string of whole blocks is empty or one block before a string of whole blocks. -/
theorem wholeBlocks_induction {motive : (s : Bytes) → s.length % 16 = 0 → Prop} (nil : motive [] rfl)
    (append : ∀ (b s : Bytes) (hb : b.length = 16) (hs : s.length % 16 = 0), motive s hs →
      motive (b ++ s) (by simp [hb, hs])) (s : Bytes) (h : s.length % 16 = 0) : motive s h := by
  induction hn : s.length using Nat.strong_induction_on generalizing s with
  | _ n ih =>
    by_cases hs : s = []
    · subst hs
      exact nil
    · have hpos : 0 < s.length := List.length_pos_iff.mpr hs
      have hdrop : (s.drop 16).length % 16 = 0 := by simp only [List.length_drop]; omega
      have happ := append (s.take 16) (s.drop 16) (by simp only [List.length_take]; omega) hdrop
        (ih (s.drop 16).length (by simp only [List.length_drop]; omega) _ hdrop rfl)
      simpa only [List.take_append_drop] using happ

theorem blockAt_append_zero {b : Bytes} (s : Bytes) (hb : b.length = 16) : blockAt (b ++ s) 0 = b := by
  simp [blockAt, slice, hb]

theorem blockAt_append_succ {b : Bytes} (s : Bytes) (hb : b.length = 16) (j : Nat) :
    blockAt (b ++ s) (j + 1) = blockAt s j := by
  have hdrop : (b ++ s).drop (16 * (j + 1)) = s.drop (16 * j) := by
    rw [Nat.mul_succ, Nat.add_comm, ← hb, List.drop_length_add_append]
  simp [blockAt, slice, hdrop]

/-- The chaining value of block `j`: the IV, then the blocks of `s`. -/
theorem blockAt_append_eq_ite {b : Bytes} (s : Bytes) (hb : b.length = 16) (j : Nat) :
    blockAt (b ++ s) j = if j = 0 then b else blockAt s (j - 1) := by
  cases j with
  | zero => exact blockAt_append_zero s hb
  | succ j => exact blockAt_append_succ s hb j

theorem length_block_append_div {b : Bytes} (s : Bytes) (hb : b.length = 16) :
    (b ++ s).length / 16 = s.length / 16 + 1 := by
  rw [List.length_append, hb, Nat.add_div_left _ (by decide)]

/-! One turn of each loop -/

theorem aesCbcEnc_append (key iv : Bytes) {b : Bytes} (data : Bytes) (hb : b.length = 16) :
    aesCbcEnc key iv (b ++ data) =
      (aesE key (xorBytes b iv) ++ (aesCbcEnc key (aesE key (xorBytes b iv)) data).1,
        (aesCbcEnc key (aesE key (xorBytes b iv)) data).2) := by
  rw [aesCbcEnc, chunks_append 16 (by decide) b data hb]
  rfl

theorem aesCbcDec_append (key iv : Bytes) {c : Bytes} (data : Bytes) (hc : c.length = 16) :
    aesCbcDec key iv (c ++ data) =
      (xorBytes (aesD key c) iv ++ (aesCbcDec key c data).1, (aesCbcDec key c data).2) := by
  rw [aesCbcDec, chunks_append 16 (by decide) c data hc]
  rfl

section Key

variable {key : Bytes} (hk : key.length = 16 ∨ key.length = 24 ∨ key.length = 32)

include hk

theorem aesE_xorBytes_length {b iv : Bytes} (hb : b.length = 16) (hiv : iv.length = 16) :
    (aesE key (xorBytes b iv)).length = 16 :=
  aesE_length hk (by simp [hb, hiv])

/-- R328 block by block. The chaining values are the blocks of the IV and the output; the last of them is the next IV. -/
theorem aesCbcEnc_chain {iv data : Bytes} (hiv : iv.length = 16) (hd : data.length % 16 = 0) :
    let out := (aesCbcEnc key iv data).1
    out.length = data.length ∧ (aesCbcEnc key iv data).2 = blockAt (iv ++ out) (data.length / 16) ∧
      ∀ j, j < data.length / 16 → blockAt out j = aesE key (xorBytes (blockAt data j) (blockAt (iv ++ out) j)) := by
  induction data, hd using wholeBlocks_induction generalizing iv with
  | nil => exact ⟨rfl, (blockAt_append_zero [] hiv).symm, fun j hj => absurd hj (Nat.not_lt_zero j)⟩
  | append b data hb hd ih =>
    have hc := aesE_xorBytes_length hk hb hiv
    obtain ⟨hlen, hnext, hblocks⟩ := ih hc
    simp only [aesCbcEnc_append key iv data hb, length_block_append_div data hb]
    refine ⟨by simp only [List.length_append, hc, hb, hlen], ?_, fun j hj => ?_⟩
    · rw [hnext, blockAt_append_succ _ hiv]
    · cases j with
      | zero => rw [blockAt_append_zero _ hc, blockAt_append_zero _ hb, blockAt_append_zero _ hiv]
      | succ j =>
        rw [blockAt_append_succ _ hc, blockAt_append_succ _ hb, blockAt_append_succ _ hiv,
          hblocks j (Nat.lt_of_succ_lt_succ hj)]

/-- R329 block by block. The chaining values are the blocks of the IV and the input. -/
theorem aesCbcDec_chain {iv data : Bytes} (hiv : iv.length = 16) (hd : data.length % 16 = 0) :
    let out := (aesCbcDec key iv data).1
    out.length = data.length ∧ (aesCbcDec key iv data).2 = blockAt (iv ++ data) (data.length / 16) ∧
      ∀ j, j < data.length / 16 → blockAt out j = xorBytes (aesD key (blockAt data j)) (blockAt (iv ++ data) j) := by
  induction data, hd using wholeBlocks_induction generalizing iv with
  | nil => exact ⟨rfl, (blockAt_append_zero [] hiv).symm, fun j hj => absurd hj (Nat.not_lt_zero j)⟩
  | append c data hc hd ih =>
    have hp : (xorBytes (aesD key c) iv).length = 16 := by simp [aesD_length hk hc, hiv]
    obtain ⟨hlen, hnext, hblocks⟩ := ih hc
    simp only [aesCbcDec_append key iv data hc, length_block_append_div data hc]
    refine ⟨by simp only [List.length_append, hp, hc, hlen], ?_, fun j hj => ?_⟩
    · rw [hnext, blockAt_append_succ _ hiv]
    · cases j with
      | zero => rw [blockAt_append_zero _ hp, blockAt_append_zero _ hc, blockAt_append_zero _ hiv]
      | succ j =>
        rw [blockAt_append_succ _ hp, blockAt_append_succ _ hc, blockAt_append_succ _ hiv,
          hblocks j (Nat.lt_of_succ_lt_succ hj)]

/-- Decrypting the ciphertext gives the data back and ends with the same chaining value (R332). -/
theorem aesCbcDec_aesCbcEnc {iv data : Bytes} (hiv : iv.length = 16) (hd : data.length % 16 = 0) :
    aesCbcDec key iv (aesCbcEnc key iv data).1 = (data, (aesCbcEnc key iv data).2) := by
  induction data, hd using wholeBlocks_induction generalizing iv with
  | nil => rfl
  | append b data hb hd ih =>
    have hc := aesE_xorBytes_length hk hb hiv
    simp only [aesCbcEnc_append key iv data hb, aesCbcDec_append key iv _ hc, ih hc]
    rw [aesD_aesE hk (by simp [hb, hiv]), xorBytes_xorBytes b iv (hb.trans hiv.symm)]

/-- Counter mode is its own inverse (R332). -/
theorem aesCtr_aesCtr (iv data : Bytes) : aesCtr key iv (aesCtr key iv data) = data := by
  simp only [aesCtr, ctrBlocks_chunks hk]
  exact List.ext_getElem (by simp) fun j _ _ => by simp

end Key

end Sys2Proof.Machine
end

section
/-! SUPPORT. What the AES commands answer (R320, R325 to R329, R331), and the statements about them. -/

namespace Sys2Proof.Machine

section Command

variable {s : State} {keysize : BitVec 4}

/-- An AES command fails where its body, reached only with a key of the selected length, fails under the lock (R320). -/
theorem failsUnlocked_of_aesBody {i : Instr} {body : State → State} (hi : exec i s = .next (s.aesCommand keysize body))
    (hb : aesKeyLen keysize = some s.in0.length →
      body { s with engineBusy := true } = ({ s with engineBusy := true } : State).fail) : FailsUnlocked i s := by
  rw [FailsUnlocked, hi]
  rcases s.aesCommand_cases keysize body with h | ⟨-, hkey, h⟩
  · rw [h]
    rfl
  · rw [h, hb hkey]
    rfl

/-- With an open gate and a legal key an AES command answers what its body answers under the lock (R320). -/
theorem exec_of_aesBody {i : Instr} {body : State → State} {out0 out1 : Bytes} (ho : s.cryptoAllowed = true)
    (hks : keysize.toNat ≤ 2) (hkey : s.in0.length = 16 + 8 * keysize.toNat)
    (hi : exec i s = .next (s.aesCommand keysize body))
    (hb : body { s with engineBusy := true } = ({ s with engineBusy := true } : State).ret .ok out0 out1) :
    exec i s = .next { s with engineBusy := false, out0 := out0, out1 := out1, res := 0 } := by
  rw [hi, State.aesCommand_open ho hks hkey, hb]
  rfl

theorem aesKeyLen_ne_of_badKey (h : 2 < keysize.toNat ∨ s.in0.length ≠ 16 + 8 * keysize.toNat) :
    aesKeyLen keysize ≠ some s.in0.length := fun hsome => by
  obtain ⟨hks, hkey⟩ := aesKeyLen_eq_some.mp hsome
  exact h.elim (fun hbig => absurd hks (Nat.not_le.mpr hbig)) fun hne => hne hkey

/-! Refusals of the data -/

theorem exec_aesEcbEnc_badBlock (h : s.in2.length ≠ 16) : FailsUnlocked (.aesEcbEnc keysize) s :=
  failsUnlocked_of_aesBody rfl fun _ => if_neg h

theorem exec_aesEcbDec_badBlock (h : s.in2.length ≠ 16) : FailsUnlocked (.aesEcbDec keysize) s :=
  failsUnlocked_of_aesBody rfl fun _ => if_neg h

theorem exec_aesCbcEnc_badData (h : ¬(s.in1.length = 16 ∧ s.in2.length % 16 = 0)) :
    FailsUnlocked (.aesCbcEnc keysize) s :=
  failsUnlocked_of_aesBody rfl fun _ => if_neg h

theorem exec_aesCbcDec_badData (h : ¬(s.in1.length = 16 ∧ s.in2.length % 16 = 0)) :
    FailsUnlocked (.aesCbcDec keysize) s :=
  failsUnlocked_of_aesBody rfl fun _ => if_neg h

/-! Answers -/

section Answers

variable (ho : s.cryptoAllowed = true) (hks : keysize.toNat ≤ 2) (hkey : s.in0.length = 16 + 8 * keysize.toNat)

include ho hks hkey

theorem exec_aesEcbEnc (hb : s.in2.length = 16) :
    exec (.aesEcbEnc keysize) s = .next { s with
      engineBusy := false, out0 := aesE s.in0 s.in2, out1 := [], res := 0 } :=
  exec_of_aesBody ho hks hkey rfl (if_pos hb)

theorem exec_aesEcbDec (hb : s.in2.length = 16) :
    exec (.aesEcbDec keysize) s = .next { s with
      engineBusy := false, out0 := aesD s.in0 s.in2, out1 := [], res := 0 } :=
  exec_of_aesBody ho hks hkey rfl (if_pos hb)

theorem exec_aesCbcEnc (hiv : s.in1.length = 16) (hd : s.in2.length % 16 = 0) :
    exec (.aesCbcEnc keysize) s = .next { s with
      engineBusy := false, out0 := (aesCbcEnc s.in0 s.in1 s.in2).1, out1 := (aesCbcEnc s.in0 s.in1 s.in2).2, res := 0 } :=
  exec_of_aesBody ho hks hkey rfl (if_pos ⟨hiv, hd⟩)

theorem exec_aesCbcDec (hiv : s.in1.length = 16) (hd : s.in2.length % 16 = 0) :
    exec (.aesCbcDec keysize) s = .next { s with
      engineBusy := false, out0 := (aesCbcDec s.in0 s.in1 s.in2).1, out1 := (aesCbcDec s.in0 s.in1 s.in2).2, res := 0 } :=
  exec_of_aesBody ho hks hkey rfl (if_pos ⟨hiv, hd⟩)

theorem exec_aesCmac :
    exec (.aesCmac keysize) s = .next { s with
      engineBusy := false, out0 := aesCmac s.in0 s.in2, out1 := [], res := 0 } :=
  exec_of_aesBody ho hks hkey rfl rfl

end Answers

end Command

/-- Settles O42: the chaining values of both loops are the blocks of the IV and the ciphertext. -/
theorem aesCbcChains : Obligations.AesCbcChains := by
  unfold Obligations.AesCbcChains
  refine ⟨fun s keysize _ hbad => ?_, fun s keysize ho hks hkey hiv hd => ?_⟩
  · have hbad' : ¬(s.in1.length = 16 ∧ s.in2.length % 16 = 0) := fun ⟨hiv, hd⟩ =>
      hbad.elim (fun h => h hiv) fun h => h hd
    exact ⟨exec_aesCbcEnc_badData hbad', exec_aesCbcDec_badData hbad'⟩
  · have hk : s.in0.length = 16 ∨ s.in0.length = 24 ∨ s.in0.length = 32 := by omega
    have hempty : s.in2 = [] ↔ s.in2.length / 16 = 0 := by rw [← List.length_eq_zero_iff]; omega
    obtain ⟨hencLen, hencNext, hencBlocks⟩ := aesCbcEnc_chain hk hiv hd
    obtain ⟨hdecLen, hdecNext, hdecBlocks⟩ := aesCbcDec_chain hk hiv hd
    simp only [hempty, ← blockAt_append_eq_ite _ hiv]
    exact ⟨⟨_, by rw [exec_aesCbcEnc ho hks hkey hiv hd, hencNext], hencLen, hencBlocks⟩,
      ⟨_, by rw [exec_aesCbcDec ho hks hkey hiv hd, hdecNext], hdecLen, hdecBlocks⟩⟩

/-- Settles O43: each pair of datapaths is inverse, and the first command leaves the gate, the key and the IV as they were. -/
theorem aesCommandsInvert : Obligations.AesCommandsInvert := by
  unfold Obligations.AesCommandsInvert
  intro s keysize ho hks hkey
  have hk : s.in0.length = 16 ∨ s.in0.length = 24 ∨ s.in0.length = 32 := by omega
  refine ⟨fun hb => ?_, fun hiv hd => ?_, fun hiv => ?_⟩
  · exact ⟨_, _, exec_aesEcbEnc ho hks hkey hb, exec_aesEcbDec ho hks hkey (aesE_length hk hb), rfl, rfl,
      aesD_aesE hk hb⟩
  · have hlen : (aesCbcEnc s.in0 s.in1 s.in2).1.length % 16 = 0 := by
      rw [(aesCbcEnc_chain hk hiv hd).1, hd]
    have hinv := aesCbcDec_aesCbcEnc hk hiv hd
    exact ⟨_, _, exec_aesCbcEnc ho hks hkey hiv hd, exec_aesCbcDec ho hks hkey hiv hlen, rfl, rfl,
      by simp only [hinv], by simp only [hinv]⟩
  · exact ⟨_, _, exec_aesCtr ho hks hkey hiv, exec_aesCtr ho hks hkey hiv, rfl, rfl, aesCtr_aesCtr hk s.in1 s.in2⟩

/-- Settles O40: the shared prologue refuses the key, the bodies of the one-block commands refuse the data, and the rest is
answered. -/
theorem aesBlockCommands : Obligations.AesBlockCommands := by
  unfold Obligations.AesBlockCommands
  refine ⟨fun s keysize _ hbad => ?_,
    fun s keysize _ hlen => ⟨exec_aesEcbEnc_badBlock hlen, exec_aesEcbDec_badBlock hlen⟩,
    fun s keysize ho hks hkey => ⟨exec_aesEcbEnc ho hks hkey, exec_aesEcbDec ho hks hkey, exec_aesCmac ho hks hkey⟩⟩
  have hrefuse : ∀ {i body}, exec i s = .next (s.aesCommand keysize body) → FailsUnlocked i s := fun hi =>
    failsUnlocked_of_aesBody hi fun hsome => absurd hsome (aesKeyLen_ne_of_badKey hbad)
  exact ⟨hrefuse rfl, hrefuse rfl, hrefuse rfl, hrefuse rfl, hrefuse rfl, hrefuse rfl⟩

end Sys2Proof.Machine
end

section
/-! SUPPORT. The SYS unit (R350, R351), the step by its event (R83, R403), and the two queries of the FIPS unit (R364, R365). -/

namespace Sys2Proof.Machine

/-! SYS (R350, R351) -/

/-- Settles O22: `equals` decides equality once both lengths are right, and equal ports have equal lengths. -/
theorem equalsComparesAllBytes : Obligations.EqualsComparesAllBytes := by
  unfold Obligations.EqualsComparesAllBytes
  intro s len
  have hgood : (s.in0.length == len.toNat && s.in1.length == len.toNat && equals s.in0 s.in1 len.toNat) = true ↔
      s.in0.length = len.toNat ∧ s.in0 = s.in1 := by
    rw [Bool.and_eq_true, Bool.and_eq_true, beq_iff_eq, beq_iff_eq]
    constructor
    · rintro ⟨⟨h0, h1⟩, heq⟩
      exact ⟨h0, (equals_iff _ _ _ h0 h1).mp heq⟩
    · rintro ⟨h0, heq⟩
      have h1 : s.in1.length = len.toNat := heq ▸ h0
      exact ⟨⟨h0, h1⟩, (equals_iff _ _ _ h0 h1).mpr heq⟩
  show Host.Outcome.next (s.verdict _) = _
  rw [State.verdict_eq]
  simp only [hgood]
  split <;> rfl

/-- The bytes of the word of `HWSTAT`: the owner with its busy bit, the engine lock, and nothing (R351). -/
theorem wordBytes_hwStatus (owner : BitVec 4) (busy : Bool) :
    wordBytes ((1 ||| (owner.setWidth 32 <<< 4)) ||| (if busy then 0x100 else 0)) =
      [0x01 ||| (owner.setWidth 8 <<< 4), if busy then 0x01 else 0, 0, 0] := by
  revert owner busy
  decide

/-- Settles O23: the word of the opcode, and the four bytes of the status word with and without an owner. -/
theorem hwstatReadsFlags : Obligations.HwstatReadsFlags := by
  unfold Obligations.HwstatReadsFlags
  refine ⟨by decide, fun s => congrArg (fun bytes => Host.Outcome.next (s.ret .ok bytes [])) ?_⟩
  unfold State.hwStatus
  cases s.shaHwOwner with
  | none => cases s.engineBusy <;> rfl
  | some owner => exact wordBytes_hwStatus owner s.engineBusy

/-! The step (R83, R403; logs 1 and 9) -/

/-- Some port of a command is longer than `MAX_BUF` (R31, R81). -/
theorem portsFit_eq_false {n : Nat} {a b c d : Bytes} :
    portsFit n a b c d = false ↔ n < a.length ∨ n < b.length ∨ n < c.length ∨ n < d.length := by
  simp only [portsFit, Bool.and_eq_false_iff, decide_eq_false_iff_not, Nat.not_le, or_assoc]

/-- The engine always completes a command, an illegal word too (R15, R116). -/
theorem State.execute_next (s : State) : ∃ t, s.execute = .next t := by
  rcases s.execute_cases with ⟨i, -, he⟩ | ⟨e, -, he⟩ <;> rw [he]
  · exact exec_next i s
  · exact ⟨_, rfl⟩

/-- Settles O6: each of the four events completes but a command with a port that does not fit. -/
theorem stepWithoutCommand : Obligations.StepWithoutCommand := by
  unfold Obligations.StepWithoutCommand
  refine ⟨fun s h => by simp only [step, h], fun s w a b c d rest h hlong => ?_, fun s => ?_⟩
  · simp only [step, h, portsFit_eq_false.mpr hlong, Bool.false_eq_true, if_false]
  · rcases step_cases s with
      ⟨-, he⟩ | ⟨rest, -, he⟩ | ⟨rest, -, he⟩ | ⟨w, a, b, c, d, rest, h, ⟨hlong, he⟩ | ⟨-, he⟩⟩
    · exact .inl ⟨_, he⟩
    · exact .inl ⟨_, he⟩
    · exact .inl ⟨_, he⟩
    · exact .inr ⟨he, w, a, b, c, d, rest, h, portsFit_eq_false.mp hlong⟩
    · rw [he]
      exact .inl (State.execute_next _)

/-! `FIPS_STATUS` and `FIPS_ALLOWED` (R364, R365) -/

/-- `POWER_UP_TEST_DONE` is bit 30 (R35). -/
theorem and_powerUpTestDone_ne_zero (x : Word) : x &&& powerUpTestDone ≠ 0 ↔ x.getLsbD 30 = true := by
  rw [show powerUpTestDone = BitVec.twoPow 32 30 from rfl, BitVec.and_twoPow]
  cases x.getLsbD 30 <;> decide

/-- Settles O57: the bytes of the status word, and the gate by its bit 30 and its error bits. -/
theorem statusIsReadable : Obligations.StatusIsReadable := by
  unfold Obligations.StatusIsReadable
  refine ⟨by decide, by decide, fun s => ⟨?_, ?_⟩⟩
  · rw [← wordBytes_eq]
    rfl
  · have hopen : s.cryptoAllowed = true ↔ s.fipsStatus.getLsbD 30 = true ∧ s.fipsStatus &&& 0x0000FFFF = 0 := by
      rw [State.cryptoAllowed_iff, and_powerUpTestDone_ne_zero]
      rfl
    show Host.Outcome.next (s.verdict _) = _
    rw [State.verdict_eq]
    simp only [hopen]
    split <;> rfl

end Sys2Proof.Machine
end

section
/-! SUPPORT. The gate closed (R378, R392): the gate check comes first in every gated command. -/

namespace Sys2Proof.Machine

section Closed

variable {i : Instr} {s : State} {body : State → State} (hc : s.cryptoAllowed = false)

include hc

/-- A command that begins with the gate check. -/
theorem exec_closed_of_gated (he : exec i s = .next (s.gated body)) :
    exec i s = .next { s with out0 := [], out1 := [], res := 1 } := by
  rw [he, State.gated_closed hc]
  rfl

/-- A command that takes the engine lock before the gate check and gives it back (R84). -/
theorem exec_closed_of_locked (hb : s.engineBusy = false)
    (he : exec i s = .next (s.withEngine fun s => s.gated body)) :
    exec i s = .next { s with out0 := [], out1 := [], res := 1 } := by
  rw [he, State.withEngine_gated_closed hc, ← hb]
  rfl

/-- An init command, which looks at its path selector first (R150, R172). -/
theorem State.initContext_closed (alg j : BitVec 4) (path : BitVec 2) (make : HashAlg → HashPath → CtxSlot) :
    s.initContext alg j path make = s.ret .fail [] [] := by
  rcases s.initContext_cases alg j path make with h | ⟨_, _, _, _, -, -, ho, -⟩
  · exact h
  · cases hc.symm.trans ho

/-- `HMAC_FINAL` clears a key block before it fails (R174). -/
theorem exec_hmacFinal_closed (j : BitVec 4) : exec (.hmacFinal j) s = .next ((s.clearKey j).ret .fail [] []) := by
  show Host.Outcome.next (if s.cryptoAllowed then _ else _) = _
  rw [hc]
  rfl

end Closed

theorem State.clearKey_of_hmac {s : State} {j : BitVec 4} {c : HashCtx} {okey : Bytes} (hj : j.toNat < s.cfg.nCtx)
    (h : s.ctxAt j = .hmac c okey) : s.clearKey j = s.setCtx j (.hmac c (zeros c.alg.blockBytes)) := by
  have hslot : s.isCtxSlot j = true := decide_eq_true hj
  simp only [State.clearKey, hslot, h]

/-- Without an HMAC context there is no key block to clear (R41). -/
theorem State.clearKey_of_not_hmac {s : State} {j : BitVec 4}
    (h : s.cfg.nCtx ≤ j.toNat ∨ ∀ c okey, s.ctxAt j ≠ .hmac c okey) : s.clearKey j = s := by
  unfold State.clearKey
  split
  · next c okey hj hc => exact absurd hc (h.resolve_left (fun hle => State.not_isCtxSlot hle hj) c okey)
  · rfl

/-- With the gate closed a gated command but `HMAC_FINAL` fails and leaves the rest (R392). -/
theorem exec_closed {i : Instr} {s : State} (hi : i.gated = true) (hne : ∀ slot, i ≠ .hmacFinal slot)
    (hc : s.cryptoAllowed = false) (hb : s.engineBusy = false) :
    exec i s = .next { s with out0 := [], out1 := [], res := 1 } := by
  cases i with
  | hashInit alg j path | hmacInit alg j path => exact congrArg Host.Outcome.next (State.initContext_closed hc alg j path _)
  | hashUpdate | hashFinal | hmacUpdate | hkdf | trngWord | drbgInit | drbgReseed | drbgGenerate | drbgInitRfc6979
  | randBytes => exact exec_closed_of_gated hc rfl
  | aesEcbEnc | aesEcbDec | aesCtr | aesCbcEnc | aesCbcDec | aesCmac => exact exec_closed_of_locked hc hb rfl
  | modexpBlinded | modexpPub | rsaEncrypt | rsaDecrypt | rsaSign | rsaVerify => exact exec_closed_of_locked hc hb rfl
  | p256KeyFromBytes | p256BaseMul | p256PointMul | ecdsaSignRaw | ecdsaSign | ecdsaVerify =>
    exact exec_closed_of_locked hc hb rfl
  | hmacFinal j => exact absurd rfl (hne j)
  | _ => cases hi

/-- Settles O16: the gate check of the three frames of gated commands, and `HMAC_FINAL` by whether it has a key to clear. -/
theorem closedGateStopsCommands : Obligations.ClosedGateStopsCommands := by
  unfold Obligations.ClosedGateStopsCommands
  refine ⟨fun i s hi hne hc hb => exec_closed hi hne hc hb, fun j s c okey hc hj hslot => ?_, fun j s hc hnone => ?_⟩
  · rw [exec_hmacFinal_closed hc, State.clearKey_of_hmac hj hslot]
    rfl
  · rw [exec_hmacFinal_closed hc, State.clearKey_of_not_hmac hnone]
    rfl

end Sys2Proof.Machine
end

section
/-! SUPPORT. The known-answer tests and the power-on of the FIPS unit (R360 to R363, R367): one equation for each end of
`FIPS_POWER_ON`, and what its battery leaves. -/

namespace Sys2Proof.Machine

/-! `FIPS_KAT` (R363, R367) -/

/-- A KAT is good where it is not injected and its computation is right (R363, R369). -/
theorem State.katGood_iff {s : State} {id : KatId} :
    s.katGood id = true ↔ s.fipsInject.setWidth 32 &&& id.errorBit = 0 ∧ katComputes s.cfg id = true := by
  simp [State.katGood, State.injected]

/-- With the lock free a good KAT changes nothing. -/
theorem State.katStep_good {s : State} {id : KatId} (hb : s.engineBusy = false) (hg : s.katGood id = true) :
    s.katStep id = s := by
  rw [State.katStep_eq, if_pos hg, hb, ite_self, ← hb]

/-- With the lock free a bad KAT raises its error bit. -/
theorem State.katStep_bad {s : State} {id : KatId} (hb : s.engineBusy = false) (hg : s.katGood id = false) :
    s.katStep id = s.raiseFatal id.errorBit := by
  rw [State.katStep_eq, if_neg (ne_true_of_eq_false hg), hb, ite_self, ← hb]
  rfl

theorem KatId.errorBit_within_errorMask (id : KatId) : id.errorBit &&& errorMask = id.errorBit := by cases id <;> rfl

theorem KatId.errorBit_and_signals (id : KatId) : id.errorBit &&& 0xC0000000 = 0 := by cases id <;> rfl

theorem exec_fipsKat {s : State} {kat : BitVec 4} {id : KatId} (hk : katOfSel kat = some id)
    (hrsa : id = .rsa2048 → s.cfg.katRsaEnabled = true) :
    exec (.fipsKat kat) s = .next ((s.katStep id).ret (if s.katGood id then .ok else .fail) [] []) := by
  have hrun : ¬ (id = .rsa2048 ∧ s.cfg.katRsaEnabled = false) := by
    rintro ⟨h, hoff⟩
    cases hoff.symm.trans (hrsa h)
  show execFipsKat kat s = _
  rw [execFipsKat, hk]
  simp only [if_neg hrun, State.verdict_eq]

/-- The selectors without a KAT (R111). -/
theorem katOfSel_eq_none {kat : BitVec 4} (h : kat = 0 ∨ 6 < kat.toNat) : katOfSel kat = none := by
  revert kat
  decide

theorem exec_fipsKat_unknown {s : State} {kat : BitVec 4}
    (h : kat = 0 ∨ 6 < kat.toNat ∨ kat = 6 ∧ s.cfg.katRsaEnabled = false) :
    exec (.fipsKat kat) s = .next (s.ret .fail [] []) := by
  show execFipsKat kat s = _
  rw [← or_assoc] at h
  rcases h with hnone | ⟨rfl, hoff⟩
  · rw [execFipsKat, katOfSel_eq_none hnone, State.fail_eq]
  · have hrsa : katOfSel 6 = some .rsa2048 := rfl
    simp only [execFipsKat, hrsa, hoff, and_self, if_true, State.fail_eq]

/-- Settles O59: the verdict of the one KAT, and the selectors that name none. -/
theorem katRuns : Obligations.KatRuns := by
  unfold Obligations.KatRuns
  refine ⟨fun s kat id hb hk hrsa => ⟨fun hi hcomp => ?_, fun hbad => ?_⟩, fun s kat h => exec_fipsKat_unknown h⟩
  · have hgood : s.katGood id = true := State.katGood_iff.mpr ⟨hi, hcomp⟩
    rw [exec_fipsKat hk hrsa, State.katStep_good hb hgood, if_pos hgood]
    rfl
  · have hnot : s.katGood id = false := by
      rw [← Bool.not_eq_true, State.katGood_iff]
      rintro ⟨hi, hcomp⟩
      rcases hbad with h | h
      · exact h hi
      · cases h.symm.trans hcomp
    rw [exec_fipsKat hk hrsa, State.katStep_bad hb hnot, hnot, State.raiseFatal, id.errorBit_within_errorMask]
    rfl

/-! The ends of `FIPS_POWER_ON` (R360) -/

/-- The tests after the startup: none with the persisted flag, the battery without it (R360, R361). -/
def State.afterTests (s : State) : State := if s.pwrupDonePersist then s else s.runBattery

section Ends

variable {s t : State}

theorem exec_fipsPowerOn_error (he : s.hasError = true) : exec .fipsPowerOn s = .next (s.ret .fail [] []) := by
  show execFipsPowerOn s = _
  rw [execFipsPowerOn, if_pos he, State.fail_eq]

theorem exec_fipsPowerOn_done (he : s.hasError = false) (hd : s.testsDone = true) :
    exec .fipsPowerOn s = .next (s.ret .ok [] []) := by
  show execFipsPowerOn s = _
  simp only [execFipsPowerOn, he, hd, Bool.false_eq_true, if_false, if_true, State.done_eq]

theorem exec_fipsPowerOn_noisy (he : s.hasError = false) (hd : s.testsDone = false) (h : s.trngStartup = (false, t)) :
    exec .fipsPowerOn s = .next (t.ret .fail [] []) := by
  show execFipsPowerOn s = _
  simp only [execFipsPowerOn, he, hd, h, Bool.false_eq_true, if_false, State.fail_eq]

theorem exec_fipsPowerOn_failed (he : s.hasError = false) (hd : s.testsDone = false) (h : s.trngStartup = (true, t))
    (hbad : t.afterTests.hasError = true) : exec .fipsPowerOn s = .next (t.afterTests.ret .fail [] []) := by
  unfold State.afterTests at hbad ⊢
  show execFipsPowerOn s = _
  simp only [execFipsPowerOn, he, hd, h, hbad, Bool.false_eq_true, if_false, if_true, State.fail_eq]

theorem exec_fipsPowerOn_opens (he : s.hasError = false) (hd : s.testsDone = false) (h : s.trngStartup = (true, t))
    (hgood : t.afterTests.hasError = false) : exec .fipsPowerOn s = .next (t.afterTests.openGate.ret .ok [] []) := by
  unfold State.afterTests at hgood ⊢
  show execFipsPowerOn s = _
  simp only [execFipsPowerOn, he, hd, h, hgood, Bool.false_eq_true, if_false, State.done_eq]

end Ends

/-- A status with neither bit 30 nor an error bit: the gate is `UNINITIALIZED` (R36). -/
theorem State.uninitialized_of_and_eq_zero {s : State} (h : s.fipsStatus &&& 0x4000FFFF = 0) :
    s.hasError = false ∧ s.testsDone = false := by
  have hsplit : (0x4000FFFF : Word) = powerUpTestDone ||| errorMask := rfl
  rw [hsplit, BitVec.and_or_distrib_left] at h
  obtain ⟨hd, he⟩ := BitVec.or_eq_zero_iff.mp h
  exact ⟨by simp [State.hasError, he], by simp [State.testsDone, hd]⟩

/-! The battery (R360, R362) -/

/-- With the lock free a battery of good KATs changes nothing. -/
theorem kats_good {s : State} (hb : s.engineBusy = false) (ids : List KatId) (hg : ∀ id ∈ ids, s.katGood id = true) :
    ids.foldl State.katStep s = s := by
  induction ids with
  | nil => rfl
  | cons id ids ih =>
    rw [List.foldl_cons, State.katStep_good hb (hg id List.mem_cons_self)]
    exact ih fun k hk => hg k (List.mem_cons_of_mem id hk)

/-- The tests after the startup change nothing where they are not due or all good. -/
theorem State.afterTests_good {s : State} (hb : s.engineBusy = false)
    (hg : s.pwrupDonePersist = true ∨ ∀ id ∈ battery s.cfg, s.katGood id = true) : s.afterTests = s := by
  unfold State.afterTests
  split
  · rfl
  · next hp => exact kats_good hb _ (hg.resolve_left hp)

/-- A word whose set bits are exactly those of the bad KATs has an error bit, if there is a bad one, and no bit outside the error
bits. -/
theorem katBits_masks {x : Word} {s : State} {ids : List KatId}
    (hx : ∀ j, x.getLsbD j = true ↔ ∃ id ∈ ids, s.katGood id = false ∧ id.errorBit.getLsbD j = true)
    (hbad : ∃ id ∈ ids, s.katGood id = false) : x &&& errorMask ≠ 0 ∧ x &&& 0xC0000000 = 0 := by
  constructor
  · obtain ⟨id, hid, hnot⟩ := hbad
    have hsub : x &&& id.errorBit = id.errorBit := by
      apply BitVec.eq_of_getLsbD_eq
      intro j _
      rw [BitVec.getLsbD_and]
      exact Bool.and_eq_right_iff_imp.mpr fun hj => (hx j).mpr ⟨id, hid, hnot, hj⟩
    intro h0
    apply id.errorBit_and_errorMask
    rw [← hsub, BitVec.and_comm x, BitVec.and_assoc, h0]
    exact BitVec.and_zero
  · apply BitVec.eq_of_getLsbD_eq
    intro j _
    refine (Bool.eq_false_iff.mpr fun hj => ?_).trans BitVec.getLsbD_zero.symm
    rw [BitVec.getLsbD_and, Bool.and_eq_true, hx j] at hj
    obtain ⟨⟨id, -, -, hbit⟩, hsignal⟩ := hj
    have hnone : (id.errorBit &&& 0xC0000000).getLsbD j = false := by
      rw [id.errorBit_and_signals]
      exact BitVec.getLsbD_zero
    rw [BitVec.getLsbD_and, hbit, hsignal] at hnone
    cases hnone

/-- A battery with a bad KAT, without error bits before: the bits of the bad ones, which are errors, and no flag (R362). -/
theorem runBattery_bad {s : State} (h0 : s.fipsStatus = 0) (hbad : ∃ id ∈ battery s.cfg, s.katGood id = false) :
    (∀ j, s.runBattery.fipsStatus.getLsbD j = true ↔
      ∃ id ∈ battery s.cfg, s.katGood id = false ∧ id.errorBit.getLsbD j = true) ∧
    s.runBattery.hasError = true ∧ s.runBattery.fipsStatus &&& 0xC0000000 = 0 ∧
    s.runBattery.pwrupDonePersist = false := by
  obtain ⟨-, hbits, hflag, -⟩ := State.kats_spec (battery s.cfg) s
  have hexact : ∀ j, s.runBattery.fipsStatus.getLsbD j = true ↔
      ∃ id ∈ battery s.cfg, s.katGood id = false ∧ id.errorBit.getLsbD j = true := by
    intro j
    rw [State.runBattery, hbits j, h0]
    exact or_iff_right (by simp)
  obtain ⟨herr, hsignals⟩ := katBits_masks hexact hbad
  refine ⟨hexact, bne_iff_ne.mpr herr, hsignals, ?_⟩
  rw [State.runBattery, ← Bool.not_eq_true, hflag]
  rintro ⟨-, hall⟩
  obtain ⟨id, hid, hnot⟩ := hbad
  cases hnot.symm.trans (hall id hid)

theorem State.cryptoAllowed_of_hasError {s : State} (h : s.hasError = true) : s.cryptoAllowed = false := by
  rw [State.cryptoAllowed, h, Bool.not_true, Bool.and_false]

/-! The statement on `FIPS_POWER_ON` -/

/-- The inputs after a startup test on the placed words. -/
theorem Env.afterNoises_of_append {e : Env} {ws rest : List Word} (hn : e.noise = ws ++ rest) (hlen : ws.length = 128) :
    e.afterNoises 128 = { e with noise := rest, noiseCount := e.noiseCount + 128 } := by
  rw [Env.afterNoises, hn, ← hlen, List.drop_left]

/-- The state after a startup test that passed the placed words `ws` (R197). -/
def State.startedOn (s : State) (ws : List Word) : State :=
  { s with trng := Trng.startedOn ws, env := s.env.afterNoises 128 }

theorem State.startedOn_katGood (s : State) (ws : List Word) (id : KatId) : (s.startedOn ws).katGood id = s.katGood id :=
  State.katGood_congr rfl rfl id

/-- Settles O56: the end that each state of the gate, the noise and the KATs leads to. -/
theorem powerOnOpensGate : Obligations.PowerOnOpensGate := by
  unfold Obligations.PowerOnOpensGate
  refine ⟨⟨fun s he => exec_fipsPowerOn_error he, fun s ho => ?_, fun s ws rest h0 hb hf hi hn hlen hrun hfair hg => ?_⟩,
    fun s ws rest h0 hf hn hlen hbad => ?_, fun s h0 hf => ?_, fun s ws rest h0 hp hf hi hn hlen hrun hfair hbad => ?_⟩
  · obtain ⟨hd, he⟩ := Bool.and_eq_true_iff.mp ho
    exact exec_fipsPowerOn_done (by simpa using he) hd
  · obtain ⟨he, hd⟩ := State.uninitialized_of_and_eq_zero h0
    have hstart := State.trngStartup_passes he hf hi hn hlen hrun hfair
    have htests : (s.startedOn ws).afterTests = s.startedOn ws := State.afterTests_good hb hg
    have hst : s.fipsStatus ||| powerUpTestDone ||| modeActive = s.fipsStatus ||| 0xC0000000 := BitVec.or_assoc ..
    have hexec := exec_fipsPowerOn_opens (t := s.startedOn ws) he hd hstart (htests.symm ▸ he)
    rw [hexec, htests, State.startedOn, Env.afterNoises_of_append hn hlen, State.openGate, hst, Trng.startedOn, hlen]
    rfl
  · obtain ⟨he, hd⟩ := State.uninitialized_of_and_eq_zero h0
    obtain ⟨t, hst, hsame, hl⟩ := State.trngStartup_latches he hf hn hlen hbad
    exact ⟨_, exec_fipsPowerOn_noisy he hd hst, hl.leftByBadStartup hsame, hl.cryptoAllowed⟩
  · obtain ⟨he, hd⟩ := State.uninitialized_of_and_eq_zero h0
    exact exec_fipsPowerOn_noisy he hd (State.trngStartup_refused (.inr hf))
  · obtain ⟨he, hd⟩ := State.uninitialized_of_and_eq_zero (s := s) (by rw [h0]; exact BitVec.zero_and)
    have hstart := State.trngStartup_passes he hf hi hn hlen hrun hfair
    have htests : (s.startedOn ws).afterTests = (s.startedOn ws).runBattery := if_neg (ne_true_of_eq_false hp)
    obtain ⟨hbits, herr, hsignals, hflag⟩ := runBattery_bad (s := s.startedOn ws) h0 hbad
    have hexec := exec_fipsPowerOn_failed (t := s.startedOn ws) he hd hstart (htests.symm ▸ herr)
    rw [htests] at hexec
    simp only [State.startedOn_katGood] at hbits
    refine ⟨_, hexec, rfl, ?_⟩
    rw [State.ret_cryptoAllowed, State.ret_pwrupDonePersist, State.ret_fipsStatus]
    exact ⟨State.cryptoAllowed_of_hasError herr, hflag, hsignals, hbits⟩

end Sys2Proof.Machine
end

section
/-! SUPPORT. What every command does to `FIPS_STATUS` and the persisted flag (R377, R390, R393, R394): three kinds of change, and
what runs of them keep. -/

namespace Sys2Proof.Machine

/-! Bits within a word -/

/-- Bits of `y` are none outside `y`. -/
theorem and_and_not_eq_zero {x y : Word} (h : x &&& y = x) (m : Word) : x &&& m &&& ~~~y = 0 := by
  rw [← h]
  ext j
  simp +contextual

/-- Bits of `y` are bits of an OR with `y`. -/
theorem and_or_of_and_eq {x y : Word} (h : x &&& y = x) (z : Word) : x &&& (z ||| y) = x := by
  rw [BitVec.and_or_distrib_left, h]
  ext j
  simp +contextual

/-- Bits that are set stay set under an OR. -/
theorem or_and_of_and_eq {x y z : Word} (h : x &&& z = z) : (x ||| y) &&& z = z := by
  rw [BitVec.and_comm, BitVec.or_comm]
  exact and_or_of_and_eq ((BitVec.and_comm ..).trans h) y

/-- What a mask does not find after the gain it did not find before. -/
theorem and_eq_zero_of_gains {x y m : Word} (hg : y &&& x = x) (h0 : y &&& m = 0) : x &&& m = 0 := by
  rw [← hg, BitVec.and_assoc, BitVec.and_comm x, ← BitVec.and_assoc, h0]
  exact BitVec.zero_and

/-! One elementary change -/

/-- What an elementary change of the command `i` does to the status and the persisted flag: nothing; an error of those that `i`
may raise, which clears the flag (R394); or the opening of a gate without an error (R360). -/
inductive StatusChange (i : Instr) (s t : State) : Prop where
  | same (hst : t.fipsStatus = s.fipsStatus) (hp : t.pwrupDonePersist = s.pwrupDonePersist)
  | raised (bits : Word) (hi : bits &&& i.mayRaise = bits) (hst : t.fipsStatus = s.fipsStatus ||| (bits &&& errorMask))
      (hp : t.pwrupDonePersist = false)
  | opened (hi : i = .fipsPowerOn) (he : s.hasError = false)
      (hst : t.fipsStatus = s.fipsStatus ||| (powerUpTestDone ||| modeActive))

/-- The commands that ask the noise source may raise both of its bits (R89, R393). -/
theorem Instr.mayRaise_of_asksNoise {i : Instr} (h : i.asksNoise = true) : 0x6 &&& i.mayRaise = 0x6 := by
  cases i with
  | trngStartup | trngWord | drbgGenerate | randBytes | ecdsaSign => exact BitVec.and_self
  | fipsPowerOn => rfl
  | _ => cases h

theorem healthBits_and_mayRaise {i : Instr} (h : i.asksNoise = true) (rct apt : Bool) :
    healthBits rct apt &&& i.mayRaise = healthBits rct apt := by
  have hbits : healthBits rct apt &&& 0x6 = healthBits rct apt := by cases rct <;> cases apt <;> rfl
  rw [← hbits, BitVec.and_assoc, Instr.mayRaise_of_asksNoise h]

theorem State.Latched.statusChange {i : Instr} {s t : State} (hi : i.asksNoise = true) (h : s.Latched t) :
    StatusChange i s t := by
  obtain ⟨rct, apt, -, hst⟩ := h.status
  exact .raised _ (healthBits_and_mayRaise hi rct apt) hst h.persist

theorem Op.statusChange {i : Instr} {s t : State} (h : Op i s t) : StatusChange i s t := by
  cases h with
  | startup hi =>
    rcases s.trngStartup_cases with he | ⟨-, hst | hl⟩
    · rw [he]
      exact .same rfl rfl
    · exact .same hst.status hst.persist
    · exact hl.statusChange hi
  | word hi =>
    rcases s.trngWord_cases with he | ⟨-, -, hp | hl⟩
    · rw [he]
      exact .same rfl rfl
    · exact .same hp.status hp.persist
    · exact hl.statusChange hi
  | raise bits hi => exact .raised bits hi rfl rfl
  | throw mask hi => exact .raised (mask.setWidth 32) (by rw [hi]; exact BitVec.and_self) rfl rfl
  | openGate hi he => exact .opened hi he (BitVec.or_assoc ..)
  | draws _ hf => exact hf.keeps (P := StatusChange i s) (.same rfl rfl)
  | finish => exact State.releaseAfter_keeps (P := StatusChange i s) (.same rfl rfl) (.same rfl rfl)
  | _ => exact .same rfl rfl

/-! A whole command -/

/-- What a command leaves of the status: every bit that was set (R377), no error bit but those it may raise (R393), a cleared flag
behind a new error bit (R394), and bit 30 as it was, except for `FIPS_POWER_ON` (R360). -/
structure State.StatusGains (i : Instr) (s t : State) : Prop where
  gains : t.fipsStatus &&& s.fipsStatus = s.fipsStatus
  errors : (t.fipsStatus &&& errorMask) &&& ~~~(s.fipsStatus ||| i.mayRaise) = 0
  flag : t.fipsStatus &&& errorMask ≠ s.fipsStatus &&& errorMask → t.pwrupDonePersist = false
  done : i ≠ .fipsPowerOn → t.fipsStatus &&& powerUpTestDone = s.fipsStatus &&& powerUpTestDone

theorem State.StatusGains.refl (i : Instr) (s : State) : State.StatusGains i s s where
  gains := BitVec.and_self
  errors := and_and_not_eq_zero (BitVec.or_comm .. ▸ and_or_of_and_eq BitVec.and_self i.mayRaise) errorMask
  flag h := absurd rfl h
  done _ := rfl

theorem State.StatusGains.change {i : Instr} {s t u : State} (hs : State.StatusGains i s t) (h : StatusChange i t u) :
    State.StatusGains i s u := by
  cases h with
  | same hst hp =>
    exact ⟨hst ▸ hs.gains, hst ▸ hs.errors, fun hne => hp.trans (hs.flag (hst ▸ hne)), fun hi => hst ▸ hs.done hi⟩
  | raised bits hi hst hp =>
    refine ⟨hst ▸ or_and_of_and_eq hs.gains, ?_, fun _ => hp, fun hne => ?_⟩
    · rw [hst, BitVec.and_assoc, or_and_eq_zero]
      refine ⟨BitVec.and_assoc .. ▸ hs.errors, ?_⟩
      rw [← BitVec.and_assoc, and_errorMask_and BitVec.and_self]
      exact and_and_not_eq_zero (and_or_of_and_eq hi s.fipsStatus) errorMask
    · rw [hst, or_and_of_and_eq_zero ((BitVec.and_assoc ..).trans BitVec.and_zero)]
      exact hs.done hne
  | opened hi he hst =>
    have hsame : u.fipsStatus &&& errorMask = t.fipsStatus &&& errorMask := by
      rw [hst]
      exact or_and_of_and_eq_zero rfl
    have h0 : t.fipsStatus &&& errorMask = 0 := by simpa [State.hasError] using he
    refine ⟨hst ▸ or_and_of_and_eq hs.gains, hsame ▸ hs.errors, fun hne => ?_, fun hne => absurd hi hne⟩
    rw [hsame, h0, and_eq_zero_of_gains hs.gains h0] at hne
    exact absurd rfl hne

theorem exec_statusGains {i : Instr} {s t : State} (h : exec i s = .next t) : State.StatusGains i s t :=
  (exec_runs i s t h).keeps (P := State.StatusGains i s) (fun ho hs => hs.change ho.statusChange)
    (fun _ hs => ⟨hs.gains, hs.errors, hs.flag, hs.done⟩) (.refl i s)

/-- Settles O19: the error bits and the flag of every run of elementary changes. -/
theorem errorBitsOfCommands : Obligations.ErrorBitsOfCommands := by
  unfold Obligations.ErrorBitsOfCommands
  intro i s t h
  have hgains := exec_statusGains h
  exact ⟨hgains.errors, hgains.flag⟩

/-! A stretch of commands (R377) -/

theorem State.execute_gains {s t : State} (h : s.execute = .next t) : t.fipsStatus &&& s.fipsStatus = s.fipsStatus := by
  rcases s.execute_cases with ⟨i, -, he⟩ | ⟨e, -, he⟩ <;> rw [he] at h
  · exact (exec_statusGains h).gains
  · cases h
    exact BitVec.and_self

theorem CommandLeads.gains {s t : State} (h : CommandLeads s t) : t.fipsStatus &&& s.fipsStatus = s.fipsStatus := by
  obtain ⟨w, a, b, c, d, he⟩ := h
  exact (State.execute_gains he :)

theorem CommandsLead.gains {s t : State} (h : CommandsLead s t) : t.fipsStatus &&& s.fipsStatus = s.fipsStatus := by
  induction h with
  | refl => exact BitVec.and_self
  | tail _ hstep ih => rw [← ih, ← BitVec.and_assoc, hstep.gains]

/-- A gate that is closed behind finished tests has an error, which stays (R36, R377). -/
theorem State.closed_of_gains {s t : State} (hg : t.fipsStatus &&& s.fipsStatus = s.fipsStatus)
    (hd : s.fipsStatus &&& powerUpTestDone ≠ 0) (hc : s.cryptoAllowed = false) : t.cryptoAllowed = false := by
  rw [← Bool.not_eq_true, State.cryptoAllowed_iff] at hc ⊢
  rintro ⟨-, h0⟩
  exact hc ⟨hd, and_eq_zero_of_gains hg h0⟩

/-- A startup test does not open the gate (R197). -/
theorem State.trngStartup_closed {s : State} (hc : s.cryptoAllowed = false) : s.trngStartup.2.cryptoAllowed = false := by
  rcases s.trngStartup_cases with he | ⟨-, hst | hl⟩
  · rwa [he]
  · exact (State.cryptoAllowed_congr hst.status).trans hc
  · exact hl.cryptoAllowed

/-- A `FIPS_POWER_ON` that opens the gate answers `OK`: the ends with `FAIL` leave it closed (R360). -/
theorem exec_fipsPowerOn_opening {s t : State} (hc : s.cryptoAllowed = false) (h : exec .fipsPowerOn s = .next t)
    (ho : t.cryptoAllowed = true) : t.res = 0 := by
  have hfails : ∀ u : State, u.cryptoAllowed = false → exec .fipsPowerOn s ≠ .next (u.ret .fail [] []) := by
    intro u hu he
    cases h.symm.trans he
    rw [State.ret_cryptoAllowed, hu] at ho
    cases ho
  have hanswers : ∀ u : State, exec .fipsPowerOn s = .next (u.ret .ok [] []) → t.res = 0 := by
    intro u he
    cases h.symm.trans he
    rfl
  cases he : s.hasError with
  | true => exact absurd (exec_fipsPowerOn_error he) (hfails s hc)
  | false =>
    cases hd : s.testsDone with
    | true => exact hanswers s (exec_fipsPowerOn_done he hd)
    | false =>
      have hclosed := State.trngStartup_closed hc
      rcases hst : s.trngStartup with ⟨_ | _, u⟩
      · rw [hst] at hclosed
        exact absurd (exec_fipsPowerOn_noisy he hd hst) (hfails u hclosed)
      · cases htests : u.afterTests.hasError with
        | true =>
          exact absurd (exec_fipsPowerOn_failed he hd hst htests) (hfails _ (State.cryptoAllowed_of_hasError htests))
        | false => exact hanswers _ (exec_fipsPowerOn_opens he hd hst htests)

/-- A command that opens the gate is a `FIPS_POWER_ON`: every other keeps bit 30, and an error stays (R377). -/
theorem exec_opening {i : Instr} {s t : State} (h : exec i s = .next t) (hc : s.cryptoAllowed = false)
    (ho : t.cryptoAllowed = true) : i = .fipsPowerOn := by
  have hgains := exec_statusGains h
  obtain ⟨hd, he⟩ := (State.cryptoAllowed_iff t).mp ho
  by_contra hne
  rw [hgains.done hne] at hd
  have hopen := (State.cryptoAllowed_iff s).mpr ⟨hd, and_eq_zero_of_gains hgains.gains he⟩
  cases hc.symm.trans hopen

/-- Settles O15: a command adds to the status, so do sequences of them; errors and finished tests stay, and only
`FIPS_POWER_ON` finishes the tests. -/
theorem statusOnlyGainsBits : Obligations.StatusOnlyGainsBits := by
  unfold Obligations.StatusOnlyGainsBits
  refine ⟨fun s t h => h.gains, fun s t u ho hst hc htu => ?_, fun s t w a b c d h hc ho => ?_⟩
  · have hdone : t.fipsStatus &&& powerUpTestDone ≠ 0 := fun h0 =>
      ((State.cryptoAllowed_iff s).mp ho).1 (and_eq_zero_of_gains hst.gains h0)
    exact State.closed_of_gains htu.gains hdone hc
  · rcases (s.issue w a b c d).execute_cases with ⟨i, hw, he⟩ | ⟨e, -, he⟩ <;> rw [he] at h
    · obtain rfl := exec_opening h hc ho
      exact ⟨hw, exec_fipsPowerOn_opening (s := s.issue w a b c d) hc h ho⟩
    · cases h
      cases hc.symm.trans ho

end Sys2Proof.Machine
end
